-- ==== Sys2Proof/Word.lean ====
section
/-! DEFINITION. The core's data units and the widths of its two interface words (20_memory.md R41,
00_scope.md R5, 30_encoding.md R60 and R61). -/

namespace Sys2Proof

/-- A nibble: 4 bits, an unsigned value in [0,15] (20_memory.md R41, `NIBBLE_W` of 00_scope.md R5). -/
abbrev Nibble := BitVec 4

/-- A block, key or round key: 16 bits (20_memory.md R41, `BLOCK_W` and `KEY_W` of 00_scope.md R5). -/
abbrev Block := BitVec 16

/-- A command word, `op[35:32] a[31:16] b[15:0]` (30_encoding.md R60). -/
abbrev CmdWord := BitVec 36

/-- A response word, `err[32] r0[31:16] r1[15:0]` (30_encoding.md R61). -/
abbrev RspWord := BitVec 33

end Sys2Proof
end

