-- ==== Sys2Proof/Syntax.lean ====
section
/-! DEFINITION. The commands of the core, one constructor per row of spec/opcode_table.json, and the abstract
syntax of one assembly line (30_encoding.md R63, R65, R68). -/

namespace Sys2Proof

/-- A decoded command. Every constructor keeps the whole operand fields `a` and `b` of its word, the bits the command
ignores included (30_encoding.md R62), so that a word can be got back from it bit for bit (R69). -/
inductive Instr where
  /-- 0x0 SUB: forward substitution of the block `a` (40_substitution.md R101). -/
  | sub (a b : Block)
  /-- 0x1 SUBI: inverse substitution of the block `a` (40_substitution.md R102). -/
  | subi (a b : Block)
  /-- 0x2 MIX: forward MixColumns of the block `a` (42_mixcolumns.md R144). -/
  | mix (a b : Block)
  /-- 0x3 MIXI: inverse MixColumns of the block `a` (42_mixcolumns.md R145). -/
  | mixi (a b : Block)
  /-- 0x4 SHR: ShiftRow of the block `a` (41_shiftrow.md R121). -/
  | shr (a b : Block)
  /-- 0x5 ARK: the block `a` XOR the round key `b` (44_addroundkey.md R181). -/
  | ark (a b : Block)
  /-- 0x6 KEYEXP: the round keys of the master key `b` (43_keyschedule.md R161). -/
  | keyexp (a b : Block)
  /-- 0x7 DEC: decryption of the ciphertext `a` under the master key `b` (45_decrypt.md R201). -/
  | dec (a b : Block)
  /-- 0x8 GFMUL: the GF(2^4) product of `a[3:0]` and `b[3:0]` (42_mixcolumns.md R142). -/
  | gfmul (a b : Block)
  /-- 0x9, reserved (30_encoding.md R65, 60_exceptions.md R300). -/
  | reserved9 (a b : Block)
  /-- 0xA, reserved (30_encoding.md R65, 60_exceptions.md R300). -/
  | reservedA (a b : Block)
  /-- 0xB, reserved (30_encoding.md R65, 60_exceptions.md R300). -/
  | reservedB (a b : Block)
  /-- 0xC, reserved (30_encoding.md R65, 60_exceptions.md R300). -/
  | reservedC (a b : Block)
  /-- 0xD, reserved (30_encoding.md R65, 60_exceptions.md R300). -/
  | reservedD (a b : Block)
  /-- 0xE, reserved (30_encoding.md R65, 60_exceptions.md R300). -/
  | reservedE (a b : Block)
  /-- 0xF, reserved (30_encoding.md R65, 60_exceptions.md R300). -/
  | reservedF (a b : Block)
deriving DecidableEq, Repr

/-- One assembly command as its grammar reads it (30_encoding.md R68). An immediate is a natural number as written:
whether it fits its field is `Source.WellFormed`. -/
inductive Source where
  /-- `SUB imm16`: `a` is the immediate, `b` is 0. -/
  | sub (block : Nat)
  /-- `SUBI imm16`. -/
  | subi (block : Nat)
  /-- `MIX imm16`. -/
  | mix (block : Nat)
  /-- `MIXI imm16`. -/
  | mixi (block : Nat)
  /-- `SHR imm16`. -/
  | shr (block : Nat)
  /-- `ARK imm16, imm16`: the block and the round key. -/
  | ark (block roundKey : Nat)
  /-- `KEYEXP imm16`: the master key goes in `b`, `a` is 0. -/
  | keyexp (key : Nat)
  /-- `DEC imm16, imm16`: the ciphertext and the master key. -/
  | dec (ciphertext key : Nat)
  /-- `GFMUL imm4, imm4`: each nibble zero-extended to its field. -/
  | gfmul (x y : Nat)
  /-- `.cmd imm36`: a raw command word. -/
  | raw (word : Nat)
deriving DecidableEq, Repr

end Sys2Proof
end

