-- ==== Sys2Proof/WellFormed.lean ====
section
/-! DEFINITION. Which commands and which assembly terms are well formed (30_encoding.md R65, R68, R69). -/

namespace Sys2Proof

/-- Every command term is well formed: "Every defined opcode accepts every value of `a` and `b`", and a reserved
opcode gets its error response "whatever its `a` and `b` fields hold" (30_encoding.md R65). -/
abbrev Instr.WellFormed (_ : Instr) : Prop := True

/-- The command leaves 0 in every field that it ignores (30_encoding.md R62), which is what the assembler writes
(R69). A reserved word has no mnemonic form, so it is never canonical. -/
def Instr.canonical : Instr → Bool
  | .sub _ b | .subi _ b | .mix _ b | .mixi _ b | .shr _ b => b == 0
  | .ark _ _ | .dec _ _ => true
  | .keyexp a _ => a == 0
  | .gfmul a b => a.extractLsb' 4 12 == 0 && b.extractLsb' 4 12 == 0
  | .reserved9 _ _ | .reservedA _ _ | .reservedB _ _ | .reservedC _ _
  | .reservedD _ _ | .reservedE _ _ | .reservedF _ _ => false

/-- Every immediate of an assembly term lies in its range, [0, 2^N - 1] (30_encoding.md R68). -/
def Source.wellFormed : Source → Bool
  | .sub v | .subi v | .mix v | .mixi v | .shr v | .keyexp v => decide (v < 2 ^ 16)
  | .ark v k | .dec v k => decide (v < 2 ^ 16) && decide (k < 2 ^ 16)
  | .gfmul x y => decide (x < 2 ^ 4) && decide (y < 2 ^ 4)
  | .raw w => decide (w < 2 ^ 36)

end Sys2Proof
end

