-- ==== Sys2Proof/Decode.lean ====
section
/-! DEFINITION. The command word's fields, the decoder, which is total (30_encoding.md R66), and the encoder
(30_encoding.md R60 and R63). -/

namespace Sys2Proof

/-- The field `op = word[35:32]` (30_encoding.md R60). -/
def opField (w : CmdWord) : BitVec 4 := w.extractLsb' 32 4

/-- The field `a = word[31:16]` (30_encoding.md R60). -/
def aField (w : CmdWord) : Block := w.extractLsb' 16 16

/-- The field `b = word[15:0]` (30_encoding.md R60). -/
def bField (w : CmdWord) : Block := w.extractLsb' 0 16

/-- The command word with the given fields, written `O AAAA BBBB` (30_encoding.md R60). -/
def cmdWord (op : BitVec 4) (a b : Block) : CmdWord := op ++ a ++ b

/-- The opcode map (30_encoding.md R63 and R65), by the four bits of `op`, `op[3]` first. -/
def commandOfBits : Bool → Bool → Bool → Bool → Block → Block → Instr
  | false, false, false, false => .sub
  | false, false, false, true => .subi
  | false, false, true, false => .mix
  | false, false, true, true => .mixi
  | false, true, false, false => .shr
  | false, true, false, true => .ark
  | false, true, true, false => .keyexp
  | false, true, true, true => .dec
  | true, false, false, false => .gfmul
  | true, false, false, true => .reserved9
  | true, false, true, false => .reservedA
  | true, false, true, true => .reservedB
  | true, true, false, false => .reservedC
  | true, true, false, true => .reservedD
  | true, true, true, false => .reservedE
  | true, true, true, true => .reservedF

/-- Decoding a command word: total, and selected by `op` alone (30_encoding.md R66). -/
def decode (w : CmdWord) : Instr :=
  let op := opField w
  commandOfBits op[3] op[2] op[1] op[0] (aField w) (bField w)

/-- Why a number is no command word. -/
inductive DecodeError where
  /-- The number has a bit above bit 35; every command word is 36 bits (30_encoding.md R67). Safe: there is no such
  word to present. -/
  | notACommandWord
deriving DecidableEq, Repr

/-- Decoding a number of any size: it is refused by name unless it is a 36-bit word (30_encoding.md R67). -/
def decodeNat (w : Nat) : Except DecodeError Instr :=
  if w < 2 ^ 36 then .ok (decode (BitVec.ofNat 36 w)) else .error .notACommandWord

/-- The instruction read from a row's bits, numbered as spec/opcode_table.json numbers them: bit 0 is the word's
bit 0, and bits at `nbits` and above are 0. A command word stands on the ports whole, so it has no byte order. -/
def decodeTableWord (nbits w : Nat) : Option Instr :=
  (decodeNat (w % 2 ^ nbits)).toOption

/-- The opcode of a command (30_encoding.md R63 and R65). -/
def Instr.opcode : Instr → BitVec 4
  | .sub _ _ => 0x0
  | .subi _ _ => 0x1
  | .mix _ _ => 0x2
  | .mixi _ _ => 0x3
  | .shr _ _ => 0x4
  | .ark _ _ => 0x5
  | .keyexp _ _ => 0x6
  | .dec _ _ => 0x7
  | .gfmul _ _ => 0x8
  | .reserved9 _ _ => 0x9
  | .reservedA _ _ => 0xA
  | .reservedB _ _ => 0xB
  | .reservedC _ _ => 0xC
  | .reservedD _ _ => 0xD
  | .reservedE _ _ => 0xE
  | .reservedF _ _ => 0xF

/-- The operand field `a` of a command. -/
def Instr.a : Instr → Block
  | .sub a _ | .subi a _ | .mix a _ | .mixi a _ | .shr a _ | .ark a _ | .keyexp a _ | .dec a _ | .gfmul a _
  | .reserved9 a _ | .reservedA a _ | .reservedB a _ | .reservedC a _ | .reservedD a _ | .reservedE a _
  | .reservedF a _ => a

/-- The operand field `b` of a command. -/
def Instr.b : Instr → Block
  | .sub _ b | .subi _ b | .mix _ b | .mixi _ b | .shr _ b | .ark _ b | .keyexp _ b | .dec _ b | .gfmul _ b
  | .reserved9 _ b | .reservedA _ b | .reservedB _ b | .reservedC _ b | .reservedD _ b | .reservedE _ b
  | .reservedF _ b => b

/-- The word of a command (30_encoding.md R60 and R63). -/
def encode (i : Instr) : CmdWord := cmdWord i.opcode i.a i.b

end Sys2Proof
end

