-- ==== Sys2Proof/Config.lean ====
section
/-! DEFINITION. What an implementation fixes and the spec leaves open: the S-box table and the free
values. An `opaque` constant has no body here, so no proof can see its value. -/

namespace Sys2Proof

/-- The parameter of the core (00_scope.md R6): `SBOX_FWD`, a bijection of the 16 nibble values. A permutation
carries its inverse and both inverse laws, which is `SBOX_INV` (10_state.md R22). -/
structure Config where
  /-- `SBOX_FWD` (10_state.md R22). -/
  sboxFwd : Equiv.Perm (Fin 16)
deriving Inhabited

/-- The hardware's own configuration. The spec gives no table (00_scope.md R6, 91_not_in_source.md N1), so this is
a free value: a claim about it holds for every bijective S-box. -/
opaque Config.hardware : Config

/-- The identity S-box of 93_implementation_defined.md: an instance that tests the wiring, never the hardware's. -/
def Config.identity : Config where
  sboxFwd := Equiv.refl (Fin 16)

/-- The forward row of the candidate table I2 (93_implementation_defined.md), PRESUMED by the spec from general
knowledge and not normative. -/
def candidateFwd : Fin 16 → Fin 16 :=
  ![9, 4, 10, 11, 13, 1, 8, 5, 6, 2, 0, 3, 12, 14, 15, 7]

/-- The inverse row of the candidate table I2 (93_implementation_defined.md). -/
def candidateInv : Fin 16 → Fin 16 :=
  ![10, 5, 9, 11, 1, 7, 8, 15, 6, 0, 2, 3, 12, 4, 13, 14]

/-- The candidate instance I2 (93_implementation_defined.md). NOT the hardware's table: no definition of the machine
uses it, and a claim that does names it (00_scope.md R6). -/
def Config.candidate : Config where
  sboxFwd :=
    { toFun := candidateFwd
      invFun := candidateInv
      left_inv := by decide
      right_inv := by decide }

/-- Free value: what `rsp_err` shows while no response exists (10_state.md R33). -/
opaque Config.freeErr : Nat → BitVec 1

/-- Free value: what `rsp_r0` shows while no response exists (10_state.md R33) and on an error response
(60_exceptions.md R300). -/
opaque Config.freeR0 : Nat → Block

/-- Free value: what `rsp_r1` shows while no response exists (10_state.md R33) and on an error response
(60_exceptions.md R300). -/
opaque Config.freeR1 : Nat → Block

/-- Free choice: which of the applicable host errors a failed batch reports (60_exceptions.md R329). -/
opaque Config.freeErrorChoice : Nat → Nat

/-- Free value: the contents of the sink after a failed batch (60_exceptions.md R328). -/
opaque Config.freeSink : Nat → List Char

end Sys2Proof
end

