-- ==== Sys2Proof/Machine/State.lean ====
section
/-! DEFINITION. The machine's state: the ports, the host's run of commands, and what the run has observed. The core
itself keeps no state between commands (10_state.md R20). -/

namespace Sys2Proof.Machine

/-- The core's error values. No step stops on one: an error is reported in the response (60_exceptions.md R304), so a
value of this type stands inside an outcome of the run. -/
inductive Fault where
  /-- `ReservedOpcode(op, a, b)` (60_exceptions.md R300), recorded by the commands 0x9 to 0xF with the opcode and
  operands of the word. Safe: the response's `r0` and `r1` are free values and the run's fault mark is kept. -/
  | reservedOpcode (op : BitVec 4) (a b : Block)
deriving DecidableEq, Repr

/-- Why a step would give no meaning. -/
inductive Refusal where
  /-- Raised by an arm of `exec` whose command has no meaning yet; no arm is such. Safe: nothing is proved of it. -/
  | notModelled (mnemonic : String)
deriving DecidableEq, Repr

/-- The outcome of one command (10_state.md R27, 70_reset_and_hazards.md R405). -/
inductive CmdOutcome where
  /-- A successful response, `err = 0`. -/
  | ok (r0 r1 : Block)
  /-- An error response, `err = 1`: it carries no `r0` and no `r1` (60_exceptions.md R300). -/
  | fault (f : Fault)
deriving DecidableEq, Repr

/-- The machine and the run it is in. -/
structure State where
  /-- The command words the host still presents, in issue order (20_memory.md R48, 70_reset_and_hazards.md R405).
  The first stands on the ports `cmd_op`, `cmd_a`, `cmd_b` (10_state.md R26); with none the core is idle. -/
  commands : List CmdWord
  /-- The port `rsp_err` (10_state.md R26, R30). Between commands the three response ports hold the last response, the
  model's choice (DESIGN CHOICE, log entry 26). -/
  rspErr : BitVec 1
  /-- The port `rsp_r0` (10_state.md R26). -/
  rspR0 : Block
  /-- The port `rsp_r1` (10_state.md R26). -/
  rspR1 : Block
  /-- Whether a command has been answered since reset; before that no response exists (10_state.md R33). -/
  responded : Bool
  /-- The observation of the run: one outcome per answered command, in issue order (70_reset_and_hazards.md R405). -/
  outcomes : List CmdOutcome
  /-- The run's fault mark, kept for the whole run (60_exceptions.md R300). -/
  faultMark : Bool
  /-- The MODEL's own counter, not the spec's: the index of the next free value (DESIGN CHOICE, log entry 3). -/
  freeCount : Nat
deriving DecidableEq, Repr

/-- The machine right after reset: idle (70_reset_and_hazards.md R400), with no response, so that the response ports
hold any value (10_state.md R33), and a run of which nothing is answered. -/
def State.reset : State where
  commands := []
  rspErr := Config.freeErr 0
  rspR0 := Config.freeR0 0
  rspR1 := Config.freeR1 0
  responded := false
  outcomes := []
  faultMark := false
  freeCount := 1

end Sys2Proof.Machine
end

