-- ==== Sys2Proof/Machine/Flags.lean ====
section
/-! DEFINITION. The core's one status bit, `rsp_err` (10_state.md R30, 30_encoding.md R61), and the name of the one
error cause (60_exceptions.md R300). The core has no other flag. -/

namespace Sys2Proof.Machine

/-- `err` of an outcome: 0 means success, 1 that the word named no operation (30_encoding.md R61, R71). -/
def CmdOutcome.err : CmdOutcome → BitVec 1
  | .ok _ _ => 0
  | .fault _ => 1

/-- Whether an outcome is a fault (70_reset_and_hazards.md R405). -/
def CmdOutcome.isFault : CmdOutcome → Bool
  | .ok _ _ => false
  | .fault _ => true

/-- The cause code of a fault (60_exceptions.md R300). -/
def Fault.code : Fault → String
  | .reservedOpcode _ _ _ => "E_RESERVED_OPCODE"

end Sys2Proof.Machine
end

