-- ==== Sys2Proof/Machine/Ops.lean ====
section
/-! DEFINITION. The shared operations on the state: the command ports, answering a command, the one error entry, and
reset between commands. -/

namespace Sys2Proof.Machine

/-- The port `cmd_op`: the opcode of the command presented, if one is (10_state.md R26). -/
def State.cmdOp (s : State) : Option (BitVec 4) := s.commands.head?.map opField

/-- The port `cmd_a` (10_state.md R26). -/
def State.cmdA (s : State) : Option Block := s.commands.head?.map aField

/-- The port `cmd_b` (10_state.md R26). -/
def State.cmdB (s : State) : Option Block := s.commands.head?.map bField

/-- The response word `err[32] r0[31:16] r1[15:0]` the ports show (30_encoding.md R61). -/
def State.rspWord (s : State) : RspWord := s.rspErr ++ s.rspR0 ++ s.rspR1

/-- The host presents a command word ahead of what it would present next (10_state.md R27). -/
def State.present (w : CmdWord) (s : State) : State := { s with commands := w :: s.commands }

/-- The command on the ports is replaced by `w`; the commands behind it stay. -/
def State.replaceCommand (w : CmdWord) (s : State) : State := { s with commands := w :: s.commands.drop 1 }

/-- The core accepts the presented command, if there is one (20_memory.md R48). -/
def acceptCommand (s : State) : Option (CmdWord × State) :=
  match s.commands with
  | [] => none
  | w :: rest => some (w, { s with commands := rest })

/-- A successful response: `err <- 0; r0 <- v; r1 <- v'` (30_encoding.md R61, R71), observed as one outcome
(70_reset_and_hazards.md R405). -/
def respondOk (r0 r1 : Block) (s : State) : State :=
  { s with
    rspErr := (CmdOutcome.ok r0 r1).err
    rspR0 := r0
    rspR1 := r1
    responded := true
    outcomes := s.outcomes ++ [.ok r0 r1] }

/-- The core's one error entry (60_exceptions.md R300, R304): `err <- 1`, `r0` and `r1` carry no defined value, the
fault joins the observation, the fault mark is set, and nothing else changes. There is no trap to return from
(R305). -/
def respondError (f : Fault) (s : State) : State :=
  { s with
    rspErr := (CmdOutcome.fault f).err
    rspR0 := Config.freeR0 s.freeCount
    rspR1 := Config.freeR1 s.freeCount
    responded := true
    outcomes := s.outcomes ++ [.fault f]
    faultMark := true
    freeCount := s.freeCount + 1 }

/-- The core answers a command with exactly one response (10_state.md R27). -/
def respond : CmdOutcome → State → State
  | .ok r0 r1, s => respondOk r0 r1 s
  | .fault f, s => respondError f s

/-- Reset between commands (70_reset_and_hazards.md R400): the core is idle and no response exists, so the response
ports hold any value (10_state.md R33). The host's commands and the run's observation are not the core's to lose. -/
def State.assertReset (s : State) : State :=
  { s with
    rspErr := Config.freeErr s.freeCount
    rspR0 := Config.freeR0 s.freeCount
    rspR1 := Config.freeR1 s.freeCount
    responded := false
    freeCount := s.freeCount + 1 }

end Sys2Proof.Machine
end

