-- ==== Sys2Proof/Machine/AddRoundKey.lean ====
section
/-! DEFINITION. AddRoundKey: ARK (44_addroundkey.md). -/

namespace Sys2Proof.Machine

/-- `addRoundKey(b, k) = b ⊕ k` (44_addroundkey.md R180). -/
def addRoundKey (b k : Block) : Block := b ^^^ k

/-- The outcome of ARK (44_addroundkey.md R181). -/
def arkOutcome (a b : Block) : CmdOutcome := .ok (addRoundKey a b) 0x0000

/-- ARK (44_addroundkey.md R181). -/
def execArk (a b : Block) (s : State) : Host.Outcome State Fault Refusal :=
  .next (respond (arkOutcome a b) s)

end Sys2Proof.Machine
end

