-- ==== Sys2Proof/Machine/Operands.lean ====
section
/-! DEFINITION. Operand forms: the nibbles of a block, their assembly, and the nibble operands of GFMUL
(00_scope.md R7 and R8, 30_encoding.md R62). -/

namespace Sys2Proof.Machine

/-- `nib(b, i) = b[15-4i : 12-4i]`, most significant nibble first (00_scope.md R7). -/
def nib (b : Block) (i : Fin 4) : Nibble := b.extractLsb' (12 - 4 * i.val) 4

/-- `asm(m0, m1, m2, m3)`, the inverse of `nib` (00_scope.md R8). -/
def asm (m0 m1 m2 m3 : Nibble) : Block :=
  m0.setWidth 16 <<< 12 ||| m1.setWidth 16 <<< 8 ||| m2.setWidth 16 <<< 4 ||| m3.setWidth 16

/-- The nibble operand `v[3:0]` of GFMUL; the bits `v[15:4]` are ignored (30_encoding.md R62). -/
def gfOperand (v : Block) : Nibble := v.extractLsb' 0 4

/-- `zext16` of a nibble (00_scope.md R8). -/
def zext16 (n : Nibble) : Block := n.setWidth 16

end Sys2Proof.Machine
end

