-- ==== Sys2Proof/Machine/Tables.lean ====
section
/-! DEFINITION. The constant tables (10_state.md R22 to R25). They never change; reset does not touch them (R33). -/

namespace Sys2Proof.Machine

/-- `sboxNib(n) = SBOX_FWD[n]` (40_substitution.md R100, 10_state.md R22). -/
def sboxNib (cfg : Config) (n : Nibble) : Nibble := BitVec.ofFin (cfg.sboxFwd n.toFin)

/-- `sboxInvNib(n) = SBOX_INV[n]` (40_substitution.md R100), the inverse table of 10_state.md R22. -/
def sboxInvNib (cfg : Config) (n : Nibble) : Nibble := BitVec.ofFin (cfg.sboxFwd.symm n.toFin)

/-- `RCON` (10_state.md R23): the constant of round 0, then of round 1 (decision D19). -/
def RCON : Vector Nibble 2 := #v[0b1110, 0b1010]

/-- `MIX_FWD = [[1,4],[4,1]]`, row by row (10_state.md R24). -/
def MIX_FWD : Vector (Vector Nibble 2) 2 := #v[#v[1, 4], #v[4, 1]]

/-- `MIX_INV = [[9,2],[2,9]]`, row by row (10_state.md R24). -/
def MIX_INV : Vector (Vector Nibble 2) 2 := #v[#v[9, 2], #v[2, 9]]

/-- `POLY`, the reduction polynomial x^4+x+1 (10_state.md R25). -/
def POLY : BitVec 5 := 0b10011

end Sys2Proof.Machine
end

