-- ==== Sys2Proof/Machine/KeySchedule.lean ====
section
/-! DEFINITION. KeySchedule: KEYEXP (43_keyschedule.md). -/

namespace Sys2Proof.Machine

/-- The four words of one round of the key expansion, `w[4r] .. w[4r+3]` (43_keyschedule.md R160). -/
structure KeyWords where
  /-- `w[4r]`. -/
  w0 : Nibble
  /-- `w[4r+1]`. -/
  w1 : Nibble
  /-- `w[4r+2]`. -/
  w2 : Nibble
  /-- `w[4r+3]`. -/
  w3 : Nibble
deriving DecidableEq, Repr

/-- The words of a master key, `w0..w3` (43_keyschedule.md R160). -/
def keyWordsOf (k : Block) : KeyWords := { w0 := nib k 0, w1 := nib k 1, w2 := nib k 2, w3 := nib k 3 }

/-- Round `r`: the next four words from these four, each from the word just before it; `w3` is looked up as it is,
unrotated (43_keyschedule.md R160). -/
def keyRound (cfg : Config) (r : Fin 2) (w : KeyWords) : KeyWords :=
  let w4 := w.w0 ^^^ sboxNib cfg w.w3 ^^^ RCON[r]
  let w5 := w.w1 ^^^ w4
  let w6 := w.w2 ^^^ w5
  let w7 := w.w3 ^^^ w6
  { w0 := w4, w1 := w5, w2 := w6, w3 := w7 }

/-- The round key of four words (43_keyschedule.md R160). -/
def keyBlock (w : KeyWords) : Block := asm w.w0 w.w1 w.w2 w.w3

/-- `keyExpand(k)`: the round keys `(k1, k2)` (43_keyschedule.md R160). The master key itself is no round key
(R164). -/
def keyExpand (cfg : Config) (k : Block) : Block × Block :=
  let words1 := keyRound cfg 0 (keyWordsOf k)
  let words2 := keyRound cfg 1 words1
  (keyBlock words1, keyBlock words2)

/-- The outcome of KEYEXP; `a` is ignored (43_keyschedule.md R161). -/
def keyexpOutcome (cfg : Config) (_a b : Block) : CmdOutcome := .ok (keyExpand cfg b).1 (keyExpand cfg b).2

/-- KEYEXP (43_keyschedule.md R161). -/
def execKeyexp (a b : Block) (s : State) : Host.Outcome State Fault Refusal :=
  .next (respond (keyexpOutcome Config.hardware a b) s)

end Sys2Proof.Machine
end

