-- ==== Sys2Proof/Machine/MixColumns.lean ====
section
/-! DEFINITION. The GF(2^4) multiplier and MixColumns: GFMUL, MIX and MIXI (42_mixcolumns.md). -/

namespace Sys2Proof.Machine

/-- The working values of `gfMul` (42_mixcolumns.md R140). -/
structure GfLoop where
  /-- The accumulator `p`. -/
  p : BitVec 4
  /-- The multiplicand `aa`; bit 4 is set only transiently. -/
  aa : BitVec 5
  /-- The multiplier `bb`. -/
  bb : BitVec 4
deriving DecidableEq, Repr

/-- One iteration of `gfMul` (42_mixcolumns.md R140). -/
def gfIteration (l : GfLoop) : GfLoop :=
  let shifted := l.aa <<< 1
  { p := if l.bb[0] then l.p ^^^ l.aa.extractLsb' 0 4 else l.p
    aa := if shifted[4] then shifted ^^^ POLY else shifted
    bb := l.bb >>> 1 }

/-- `gfMul(a, b)`, four iterations (42_mixcolumns.md R140). -/
def gfMul (a b : Nibble) : Nibble :=
  (gfIteration (gfIteration (gfIteration (gfIteration { p := 0, aa := a.setWidth 5, bb := b })))).p

/-- Output nibble `row` of a column pair under a matrix: entry (row, j) is the coefficient of input nibble j
(10_state.md R24). -/
def mixNibble (m : Vector (Vector Nibble 2) 2) (row : Fin 2) (c0 c1 : Nibble) : Nibble :=
  gfMul m[row][0] c0 ^^^ gfMul m[row][1] c1

/-- `mixColumns(b, useInverse)`: the selected matrix on each column pair (42_mixcolumns.md R143, decision D21). -/
def mixColumns (b : Block) (useInverse : Bool) : Block :=
  let m := if useInverse then MIX_INV else MIX_FWD
  asm (mixNibble m 0 (nib b 0) (nib b 1)) (mixNibble m 1 (nib b 0) (nib b 1))
    (mixNibble m 0 (nib b 2) (nib b 3)) (mixNibble m 1 (nib b 2) (nib b 3))

/-- The outcome of GFMUL: the bits above the two nibble operands are ignored (42_mixcolumns.md R142). -/
def gfmulOutcome (a b : Block) : CmdOutcome := .ok (zext16 (gfMul (gfOperand a) (gfOperand b))) 0x0000

/-- The outcome of MIX; `b` is ignored (42_mixcolumns.md R144). -/
def mixOutcome (a _b : Block) : CmdOutcome := .ok (mixColumns a false) 0x0000

/-- The outcome of MIXI; `b` is ignored (42_mixcolumns.md R145). -/
def mixiOutcome (a _b : Block) : CmdOutcome := .ok (mixColumns a true) 0x0000

/-- GFMUL (42_mixcolumns.md R142). -/
def execGfmul (a b : Block) (s : State) : Host.Outcome State Fault Refusal :=
  .next (respond (gfmulOutcome a b) s)

/-- MIX (42_mixcolumns.md R144). -/
def execMix (a b : Block) (s : State) : Host.Outcome State Fault Refusal :=
  .next (respond (mixOutcome a b) s)

/-- MIXI (42_mixcolumns.md R145). -/
def execMixi (a b : Block) (s : State) : Host.Outcome State Fault Refusal :=
  .next (respond (mixiOutcome a b) s)

end Sys2Proof.Machine
end

