-- ==== Sys2Proof/Machine/ShiftRow.lean ====
section
/-! DEFINITION. ShiftRow: SHR (41_shiftrow.md). -/

namespace Sys2Proof.Machine

/-- `shiftRow(b)`: nibbles 0 and 2 exchanged (41_shiftrow.md R120; not the textbook's 1 and 3, 90_conflicts.md C5). -/
def shiftRow (b : Block) : Block := asm (nib b 2) (nib b 1) (nib b 0) (nib b 3)

/-- The outcome of SHR; `b` is ignored (41_shiftrow.md R121). -/
def shrOutcome (a _b : Block) : CmdOutcome := .ok (shiftRow a) 0x0000

/-- SHR (41_shiftrow.md R121). -/
def execShr (a b : Block) (s : State) : Host.Outcome State Fault Refusal :=
  .next (respond (shrOutcome a b) s)

end Sys2Proof.Machine
end

