-- ==== Sys2Proof/Machine/Substitution.lean ====
section
/-! DEFINITION. SubstitutionBox: SUB and SUBI (40_substitution.md). -/

namespace Sys2Proof.Machine

/-- `substitute(b, useInverse)`: each nibble looked up in the selected table, none moved (40_substitution.md R100). -/
def substitute (cfg : Config) (b : Block) (useInverse : Bool) : Block :=
  let table := if useInverse then sboxInvNib cfg else sboxNib cfg
  asm (table (nib b 0)) (table (nib b 1)) (table (nib b 2)) (table (nib b 3))

/-- The outcome of SUB; `b` is ignored (40_substitution.md R101). -/
def subOutcome (cfg : Config) (a _b : Block) : CmdOutcome := .ok (substitute cfg a false) 0x0000

/-- The outcome of SUBI; `b` is ignored (40_substitution.md R102). -/
def subiOutcome (cfg : Config) (a _b : Block) : CmdOutcome := .ok (substitute cfg a true) 0x0000

/-- SUB (40_substitution.md R101). -/
def execSub (a b : Block) (s : State) : Host.Outcome State Fault Refusal :=
  .next (respond (subOutcome Config.hardware a b) s)

/-- SUBI (40_substitution.md R102). -/
def execSubi (a b : Block) (s : State) : Host.Outcome State Fault Refusal :=
  .next (respond (subiOutcome Config.hardware a b) s)

end Sys2Proof.Machine
end

