-- ==== Sys2Proof/Machine/Decrypt.lean ====
section
/-! DEFINITION. The decrypt pipeline: DEC (45_decrypt.md). -/

namespace Sys2Proof.Machine

/-- `decrypt(c, k)`: the round keys, then seven data stages in this fixed order, `k2` before `k1`
(45_decrypt.md R200, 90_conflicts.md C1). -/
def decrypt (cfg : Config) (c k : Block) : Block :=
  let keys := keyExpand cfg k
  let s1 := shiftRow c
  let s2 := addRoundKey s1 keys.2
  let s3 := substitute cfg s2 true
  let s4 := shiftRow s3
  let s5 := mixColumns s4 true
  let s6 := addRoundKey s5 keys.1
  let s7 := substitute cfg s6 true
  s7

/-- The outcome of DEC, with the key expanded afresh (45_decrypt.md R201). -/
def decOutcome (cfg : Config) (a b : Block) : CmdOutcome := .ok (decrypt cfg a b) 0x0000

/-- DEC (45_decrypt.md R201). -/
def execDec (a b : Block) (s : State) : Host.Outcome State Fault Refusal :=
  .next (respond (decOutcome Config.hardware a b) s)

end Sys2Proof.Machine
end

