-- ==== Sys2Proof/Machine/Reserved.lean ====
section
/-! DEFINITION. The reserved opcodes 0x9 to 0xF (30_encoding.md R65): each performs no operation and gets the error
response of 60_exceptions.md R300, whatever its operands. -/

namespace Sys2Proof.Machine

/-- The outcome of a word with a reserved opcode: the fault records the opcode and the operands
(60_exceptions.md R300). -/
def reservedOutcome (op : BitVec 4) (a b : Block) : CmdOutcome := .fault (.reservedOpcode op a b)

/-- Reserved opcode 0x9 (60_exceptions.md R300). -/
def execReserved9 (a b : Block) (s : State) : Host.Outcome State Fault Refusal :=
  .next (respond (reservedOutcome 0x9 a b) s)

/-- Reserved opcode 0xA (60_exceptions.md R300). -/
def execReservedA (a b : Block) (s : State) : Host.Outcome State Fault Refusal :=
  .next (respond (reservedOutcome 0xA a b) s)

/-- Reserved opcode 0xB (60_exceptions.md R300). -/
def execReservedB (a b : Block) (s : State) : Host.Outcome State Fault Refusal :=
  .next (respond (reservedOutcome 0xB a b) s)

/-- Reserved opcode 0xC (60_exceptions.md R300). -/
def execReservedC (a b : Block) (s : State) : Host.Outcome State Fault Refusal :=
  .next (respond (reservedOutcome 0xC a b) s)

/-- Reserved opcode 0xD (60_exceptions.md R300). -/
def execReservedD (a b : Block) (s : State) : Host.Outcome State Fault Refusal :=
  .next (respond (reservedOutcome 0xD a b) s)

/-- Reserved opcode 0xE (60_exceptions.md R300). -/
def execReservedE (a b : Block) (s : State) : Host.Outcome State Fault Refusal :=
  .next (respond (reservedOutcome 0xE a b) s)

/-- Reserved opcode 0xF (60_exceptions.md R300). -/
def execReservedF (a b : Block) (s : State) : Host.Outcome State Fault Refusal :=
  .next (respond (reservedOutcome 0xF a b) s)

end Sys2Proof.Machine
end

