-- ==== Sys2Proof/Machine/Dispatch.lean ====
section
/-! DEFINITION. The meaning of every command, one arm per constructor of Instr. -/

namespace Sys2Proof.Machine

def exec (i : Instr) (s : State) : Host.Outcome State Fault Refusal :=
  match i with
  | .sub a b => Sys2Proof.Machine.execSub a b s
  | .subi a b => Sys2Proof.Machine.execSubi a b s
  | .mix a b => Sys2Proof.Machine.execMix a b s
  | .mixi a b => Sys2Proof.Machine.execMixi a b s
  | .shr a b => Sys2Proof.Machine.execShr a b s
  | .ark a b => Sys2Proof.Machine.execArk a b s
  | .keyexp a b => Sys2Proof.Machine.execKeyexp a b s
  | .dec a b => Sys2Proof.Machine.execDec a b s
  | .gfmul a b => Sys2Proof.Machine.execGfmul a b s
  | .reserved9 a b => Sys2Proof.Machine.execReserved9 a b s
  | .reservedA a b => Sys2Proof.Machine.execReservedA a b s
  | .reservedB a b => Sys2Proof.Machine.execReservedB a b s
  | .reservedC a b => Sys2Proof.Machine.execReservedC a b s
  | .reservedD a b => Sys2Proof.Machine.execReservedD a b s
  | .reservedE a b => Sys2Proof.Machine.execReservedE a b s
  | .reservedF a b => Sys2Proof.Machine.execReservedF a b s

end Sys2Proof.Machine
end

