-- ==== Sys2Proof/Machine/Step.lean ====
section
/-! DEFINITION. One step of the machine: the core accepts the presented command and answers it
(20_memory.md R48, 70_reset_and_hazards.md R404). -/

namespace Sys2Proof.Machine

/-- One step answers one command. With no command presented the core is idle and nothing changes: it never acts on
its own (60_exceptions.md R320; DEDUCED, log entry 6). So the response ports hold the last response between commands,
which 10_state.md R33 and 70_reset_and_hazards.md R405 leave open (DESIGN CHOICE, log entry 26). -/
def step (s : State) : Host.Outcome State Fault Refusal :=
  match acceptCommand s with
  | none => .next s
  | some (w, accepted) => exec (decode w) accepted

/-- The state with a table row's word standing on the command ports, so that the next step answers it. -/
def State.withFetchWord (s : State) (nbits w : Nat) : State :=
  s.replaceCommand (BitVec.ofNat 36 (w % 2 ^ nbits))

end Sys2Proof.Machine
end

