-- ==== Sys2Proof/Machine/Text.lean ====
section
/-! DEFINITION. Hexadecimal digits and white space, which the assembler (30_encoding.md R68) and the batch host
(60_exceptions.md R321) both read. -/

namespace Sys2Proof.Machine

/-- White space between words: space, tab, line feed, vertical tab, form feed, carriage return (DESIGN CHOICE, log
entry 15: the spec names no set). -/
def isSpace (c : Char) : Bool := c == ' ' || (9 ≤ c.toNat && c.toNat ≤ 13)

/-- The value of a hexadecimal digit `0-9`, `a-f`, `A-F` (60_exceptions.md R321). -/
def hexValue (c : Char) : Option Nat :=
  if 48 ≤ c.toNat ∧ c.toNat ≤ 57 then some (c.toNat - 48)
  else if 97 ≤ c.toNat ∧ c.toNat ≤ 102 then some (c.toNat - 87)
  else if 65 ≤ c.toNat ∧ c.toNat ≤ 70 then some (c.toNat - 55)
  else none

/-- The value of a decimal digit (30_encoding.md R68). -/
def decimalValue (c : Char) : Option Nat :=
  if 48 ≤ c.toNat ∧ c.toNat ≤ 57 then some (c.toNat - 48) else none

/-- The number written by a string of digits, the first the most significant, continuing from `acc`; `none` at the
first character that is no digit. -/
def readDigits (value : Char → Option Nat) (base : Nat) : Nat → List Char → Option Nat
  | acc, [] => some acc
  | acc, c :: rest =>
    match value c with
    | none => none
    | some d => readDigits value base (acc * base + d) rest

/-- A character in front of the first part of a text. -/
def consFirst (c : Char) : List (List Char) → List (List Char)
  | [] => [[c]]
  | part :: parts => (c :: part) :: parts

/-- A text cut at every character that `separates`, empty parts kept. -/
def splitText (separates : Char → Bool) : List Char → List (List Char)
  | [] => [[]]
  | c :: rest =>
    if separates c then [] :: splitText separates rest else consFirst c (splitText separates rest)

/-- The hexadecimal digit of a nibble, `0-9` and `A-F`, as the spec writes its words. -/
def hexDigit (n : Nibble) : Char := Char.ofNat (if n.toNat < 10 then 48 + n.toNat else 55 + n.toNat)

end Sys2Proof.Machine
end

