-- ==== Sys2Proof/Machine/Assembler.lean ====
section
/-! DEFINITION. The assembler and the disassembler (30_encoding.md R68 and R69, decision D14). A text is a list of
characters; a line holds at most one command. -/

namespace Sys2Proof.Machine

/-- Why the assembler refuses a line (30_encoding.md R68). -/
inductive AsmError where
  /-- The line is not of the grammar. -/
  | badSyntax
  /-- An immediate is outside [0, 2^N - 1]: it is refused, not truncated. -/
  | immediateOutOfRange
deriving DecidableEq, Repr

/-- The word of an assembly term whose immediates are in range: 0 in every field that the command ignores
(30_encoding.md R68, R69). -/
def sourceWord : Source → CmdWord
  | .sub v => encode (.sub (BitVec.ofNat 16 v) 0)
  | .subi v => encode (.subi (BitVec.ofNat 16 v) 0)
  | .mix v => encode (.mix (BitVec.ofNat 16 v) 0)
  | .mixi v => encode (.mixi (BitVec.ofNat 16 v) 0)
  | .shr v => encode (.shr (BitVec.ofNat 16 v) 0)
  | .ark v k => encode (.ark (BitVec.ofNat 16 v) (BitVec.ofNat 16 k))
  | .keyexp k => encode (.keyexp 0 (BitVec.ofNat 16 k))
  | .dec v k => encode (.dec (BitVec.ofNat 16 v) (BitVec.ofNat 16 k))
  | .gfmul x y => encode (.gfmul (zext16 (BitVec.ofNat 4 x)) (zext16 (BitVec.ofNat 4 y)))
  | .raw w => BitVec.ofNat 36 w

/-- Assembling a term: an immediate out of its range is refused (30_encoding.md R68). -/
def assemble (t : Source) : Except AsmError CmdWord :=
  if t.wellFormed then .ok (sourceWord t) else .error .immediateOutOfRange

/-- White space removed at both ends. -/
def trimSpace (text : List Char) : List Char :=
  ((text.dropWhile isSpace).reverse.dropWhile isSpace).reverse

/-- An immediate: `0x` and hexadecimal digits, or decimal digits (30_encoding.md R68). -/
def readImmediate (text : List Char) : Option Nat :=
  match text with
  | [] => none
  | '0' :: 'x' :: [] => none
  | '0' :: 'x' :: digits => readDigits hexValue 16 0 digits
  | digits => readDigits decimalValue 10 0 digits

/-- The immediates of a command, separated by commas (30_encoding.md R68). -/
def readImmediates (text : List Char) : Option (List Nat) :=
  (splitText (fun c => c == ',') text).mapM (fun part => readImmediate (trimSpace part))

/-- The capital of a letter `a-z`; mnemonics are case-insensitive (30_encoding.md R68). -/
def toUpperCase (c : Char) : Char :=
  if 97 ≤ c.toNat ∧ c.toNat ≤ 122 then Char.ofNat (c.toNat - 32) else c

/-- The nine mnemonics and the directive `.cmd` (30_encoding.md R68), in capitals. -/
inductive Mnemonic where
  | sub | subi | mix | mixi | shr | ark | keyexp | dec | gfmul | cmd
deriving DecidableEq, Repr

/-- The letters of a mnemonic, in capitals (30_encoding.md R68). -/
def Mnemonic.letters : Mnemonic → List Char
  | .sub => ['S', 'U', 'B']
  | .subi => ['S', 'U', 'B', 'I']
  | .mix => ['M', 'I', 'X']
  | .mixi => ['M', 'I', 'X', 'I']
  | .shr => ['S', 'H', 'R']
  | .ark => ['A', 'R', 'K']
  | .keyexp => ['K', 'E', 'Y', 'E', 'X', 'P']
  | .dec => ['D', 'E', 'C']
  | .gfmul => ['G', 'F', 'M', 'U', 'L']
  | .cmd => ['.', 'C', 'M', 'D']

/-- Every mnemonic of the grammar (30_encoding.md R68). -/
def allMnemonics : List Mnemonic := [.sub, .subi, .mix, .mixi, .shr, .ark, .keyexp, .dec, .gfmul, .cmd]

/-- The mnemonic a word spells, in either case (30_encoding.md R68). -/
def readMnemonic (word : List Char) : Option Mnemonic :=
  allMnemonics.find? (fun m => m.letters == word.map toUpperCase)

/-- A mnemonic and its immediates as a term of the grammar (30_encoding.md R68). -/
def sourceOf : Mnemonic → List Nat → Option Source
  | .sub, [v] => some (.sub v)
  | .subi, [v] => some (.subi v)
  | .mix, [v] => some (.mix v)
  | .mixi, [v] => some (.mixi v)
  | .shr, [v] => some (.shr v)
  | .ark, [v, k] => some (.ark v k)
  | .keyexp, [k] => some (.keyexp k)
  | .dec, [v, k] => some (.dec v k)
  | .gfmul, [x, y] => some (.gfmul x y)
  | .cmd, [w] => some (.raw w)
  | _, _ => none

/-- A command, without its comment and the white space around it. -/
def readCommand (text : List Char) : Option Source :=
  match readMnemonic (text.takeWhile (fun c => !isSpace c)),
      readImmediates (text.dropWhile (fun c => !isSpace c)) with
  | some m, some immediates => sourceOf m immediates
  | _, _ => none

/-- Assembling one line, `[command] [';' comment]`: a line without a command gives no word (30_encoding.md R68). -/
def assembleLine (line : List Char) : Except AsmError (Option CmdWord) :=
  match trimSpace (line.takeWhile (fun c => !(c == ';'))) with
  | [] => .ok none
  | text =>
    match readCommand text with
    | none => .error .badSyntax
    | some t =>
      match assemble t with
      | .ok w => .ok (some w)
      | .error e => .error e

/-- A block as `0x` and its four hexadecimal digits (20_memory.md R42). -/
def printBlock (b : Block) : List Char :=
  ['0', 'x', hexDigit (nib b 0), hexDigit (nib b 1), hexDigit (nib b 2), hexDigit (nib b 3)]

/-- A nibble as `0x` and one hexadecimal digit. -/
def printNibble (n : Nibble) : List Char := ['0', 'x', hexDigit n]

/-- `.cmd 0x` and the word's nine hexadecimal digits (30_encoding.md R69). -/
def printRaw (w : CmdWord) : List Char :=
  ['.', 'c', 'm', 'd', ' ', '0', 'x', hexDigit (opField w)] ++
    [hexDigit (nib (aField w) 0), hexDigit (nib (aField w) 1), hexDigit (nib (aField w) 2),
      hexDigit (nib (aField w) 3)] ++
    [hexDigit (nib (bField w) 0), hexDigit (nib (bField w) 1), hexDigit (nib (bField w) 2),
      hexDigit (nib (bField w) 3)]

/-- The mnemonic form of a command: the fields it reads (30_encoding.md R68). A reserved word has none. -/
def mnemonicForm : Instr → Option (List Char)
  | .sub a _ => some (Mnemonic.sub.letters ++ [' '] ++ printBlock a)
  | .subi a _ => some (Mnemonic.subi.letters ++ [' '] ++ printBlock a)
  | .mix a _ => some (Mnemonic.mix.letters ++ [' '] ++ printBlock a)
  | .mixi a _ => some (Mnemonic.mixi.letters ++ [' '] ++ printBlock a)
  | .shr a _ => some (Mnemonic.shr.letters ++ [' '] ++ printBlock a)
  | .ark a b => some (Mnemonic.ark.letters ++ [' '] ++ printBlock a ++ [',', ' '] ++ printBlock b)
  | .keyexp _ b => some (Mnemonic.keyexp.letters ++ [' '] ++ printBlock b)
  | .dec a b => some (Mnemonic.dec.letters ++ [' '] ++ printBlock a ++ [',', ' '] ++ printBlock b)
  | .gfmul a b =>
    some (Mnemonic.gfmul.letters ++ [' '] ++ printNibble (gfOperand a) ++ [',', ' '] ++ printNibble (gfOperand b))
  | .reserved9 _ _ | .reservedA _ _ | .reservedB _ _ | .reservedC _ _ | .reservedD _ _ | .reservedE _ _
  | .reservedF _ _ => none

/-- The words `, ignored field nonzero` (30_encoding.md R69). -/
def ignoredFieldNonzero : List Char :=
  [',', ' ', 'i', 'g', 'n', 'o', 'r', 'e', 'd', ' ', 'f', 'i', 'e', 'l', 'd', ' ', 'n', 'o', 'n', 'z', 'e', 'r', 'o']

/-- Disassembling a word: its mnemonic form; or `.cmd` with a comment where an ignored field is nonzero
(30_encoding.md R69); or `.cmd` alone for a reserved opcode (R68). -/
def disassemble (w : CmdWord) : List Char :=
  match mnemonicForm (decode w) with
  | none => printRaw w
  | some form =>
    if (decode w).canonical then form
    else printRaw w ++ [' ', ';', ' '] ++ form ++ ignoredFieldNonzero

end Sys2Proof.Machine
end

