-- ==== Sys2Proof/Machine/Response.lean ====
section
/-! DEFINITION. The response as a function of the command and the constant tables alone (10_state.md R27), for any
configuration. `exec` answers with this function at the hardware's configuration. -/

namespace Sys2Proof.Machine

/-- The outcome of a command under a configuration: `ok r0 r1` or `fault ReservedOpcode` (10_state.md R27). -/
def outcomeOf (cfg : Config) : Instr → CmdOutcome
  | .sub a b => subOutcome cfg a b
  | .subi a b => subiOutcome cfg a b
  | .mix a b => mixOutcome a b
  | .mixi a b => mixiOutcome a b
  | .shr a b => shrOutcome a b
  | .ark a b => arkOutcome a b
  | .keyexp a b => keyexpOutcome cfg a b
  | .dec a b => decOutcome cfg a b
  | .gfmul a b => gfmulOutcome a b
  | .reserved9 a b => reservedOutcome 0x9 a b
  | .reservedA a b => reservedOutcome 0xA a b
  | .reservedB a b => reservedOutcome 0xB a b
  | .reservedC a b => reservedOutcome 0xC a b
  | .reservedD a b => reservedOutcome 0xD a b
  | .reservedE a b => reservedOutcome 0xE a b
  | .reservedF a b => reservedOutcome 0xF a b

/-- The observation of a run: the outcomes of its command words, in issue order (70_reset_and_hazards.md R405). -/
def observation (cfg : Config) (words : List CmdWord) : List CmdOutcome :=
  words.map (fun w => outcomeOf cfg (decode w))

end Sys2Proof.Machine
end

