-- ==== Sys2Proof/Machine/Batch.lean ====
section
/-! DEFINITION. The batch host of 60_exceptions.md R320 to R331, which drives the core through `step`. It is not part
of the core (00_scope.md R4); the spec gives its contract so that a model of the host can be built. `decodeByte` is the
open parameter `DECODE_BYTE` (R325): every definition takes it as an argument and none fixes it. -/

namespace Sys2Proof.Machine

/-- The host error kinds (60_exceptions.md R331). -/
inductive HostError where
  /-- `H_MALFORMED_HEX`: a token or key with a non-hex character, or an empty key (R322). -/
  | malformedHex
  /-- `H_TOKEN_TOO_LONG`: a token or key longer than 4 hex digits (R323). -/
  | tokenTooLong
  /-- `H_BYTE_DECODE`: a plaintext byte that `DECODE_BYTE` rejects (R325). -/
  | byteDecode
  /-- `H_IO_INPUT`: the input resource is missing or unreadable (R326). -/
  | ioInput
  /-- `H_IO_OUTPUT`: the sink cannot be written (R328). -/
  | ioOutput
deriving DecidableEq, Repr

/-- The name of a host error kind (60_exceptions.md R331). -/
def HostError.code : HostError → String
  | .malformedHex => "H_MALFORMED_HEX"
  | .tokenTooLong => "H_TOKEN_TOO_LONG"
  | .byteDecode => "H_BYTE_DECODE"
  | .ioInput => "H_IO_INPUT"
  | .ioOutput => "H_IO_OUTPUT"

/-- What a batch invocation is given (60_exceptions.md R324, R326 to R328). -/
structure BatchWorld where
  /-- The key string. -/
  key : List Char
  /-- The input text; `none` where the resource is missing or unreadable. -/
  input : Option (List Char)
  /-- Whether the sink can be written. -/
  sinkWritable : Bool
  /-- The index of this invocation's free values (the model's own, log entry 17). -/
  freeIndex : Nat
deriving DecidableEq, Repr

/-- What the host does that another party can see (60_exceptions.md R324, R327). -/
inductive BatchEvent where
  /-- The one read of the input resource, a read that fails included (DESIGN CHOICE, log entry 27). -/
  | readInput
  /-- One command issued to the core. -/
  | issue (w : CmdWord)
  /-- The one write of the sink, overwriting its contents; a write that fails is no event (DESIGN CHOICE, log entry
  27). -/
  | writeSink (text : List Char)
deriving DecidableEq, Repr

/-- How a batch invocation ended (60_exceptions.md R324, R329). -/
inductive BatchOutcome where
  /-- The output string stands in the sink. -/
  | done (output : List Char)
  /-- The run failed with this host error. -/
  | failed (e : HostError)
deriving DecidableEq, Repr

/-- What a batch invocation leaves (60_exceptions.md R324 to R329). -/
structure BatchResult where
  /-- How it ended. -/
  outcome : BatchOutcome
  /-- The contents of the sink. -/
  sink : List Char
  /-- What the host did, in order. -/
  events : List BatchEvent
  /-- The core afterwards. -/
  core : State
deriving DecidableEq, Repr

/-- The host errors that apply to the text of a token or key: a character that is no hex digit, or no character at
all (60_exceptions.md R322); more than 4 hex digits (R323). -/
def parseErrors (token : List Char) : List HostError :=
  (if token.isEmpty || token.any (fun c => (hexValue c).isNone) then [.malformedHex] else []) ++
    (if 4 < (token.filter (fun c => (hexValue c).isSome)).length then [.tokenTooLong] else [])

/-- Parsing a token or key: 1 to 4 hex digits, zero-padded on the left (60_exceptions.md R321). -/
def parseToken (token : List Char) : Except HostError Block :=
  match parseErrors token with
  | e :: _ => .error e
  | [] =>
    match readDigits hexValue 16 0 token with
    | some v => .ok (BitVec.ofNat 16 v)
    | none => .error .malformedHex

/-- The tokens of the input text, split at white space, in order (60_exceptions.md R324). -/
def tokensOf (text : List Char) : List (List Char) :=
  (splitText isSpace text).filter (fun token => !token.isEmpty)

/-- The bytes of a plaintext block, `p[15:8]` first (20_memory.md R43). -/
def bytesOf (p : Block) : UInt8 × UInt8 := (UInt8.ofBitVec (p.extractLsb' 8 8), UInt8.ofBitVec (p.extractLsb' 0 8))

/-- The two characters of a plaintext block, each byte decoded alone (60_exceptions.md R324, R325). -/
def decodeBlock (decodeByte : UInt8 → Option Char) (p : Block) : Except HostError (List Char) :=
  match decodeByte (bytesOf p).1, decodeByte (bytesOf p).2 with
  | some hi, some lo => .ok [hi, lo]
  | _, _ => .error .byteDecode

/-- What the host has done once it is through with its tokens. -/
structure TokenRun where
  /-- The characters decoded, or the error that ended the run (fail-fast, 60_exceptions.md R322). -/
  output : Except HostError (List Char)
  /-- The command words issued, in order. -/
  issued : List CmdWord
  /-- The core afterwards. -/
  core : State

/-- The per-token procedure (60_exceptions.md R324 step 3): parse, issue DEC, take `r0`, decode its two bytes. -/
def runTokens (decodeByte : UInt8 → Option Char) (k : Block) : List (List Char) → State → Host.Outcome TokenRun Fault Refusal
  | [], s => .next { output := .ok [], issued := [], core := s }
  | token :: rest, s =>
    match parseToken token with
    | .error e => .next { output := .error e, issued := [], core := s }
    | .ok c =>
      match step (s.present (encode (.dec c k))) with
      | .fault f => .fault f
      | .refused r => .refused r
      | .next s1 =>
        match decodeBlock decodeByte s1.rspR0 with
        | .error e => .next { output := .error e, issued := [encode (.dec c k)], core := s1 }
        | .ok chars =>
          match runTokens decodeByte k rest s1 with
          | .fault f => .fault f
          | .refused r => .refused r
          | .next t =>
            .next
              { output := t.output.map (fun text => chars ++ text)
                issued := encode (.dec c k) :: t.issued
                core := t.core }

/-- The host errors that apply to one token under a key (60_exceptions.md R322, R323, R325). -/
def tokenErrors (decodeByte : UInt8 → Option Char) (cfg : Config) (key : Except HostError Block)
    (token : List Char) : List HostError :=
  match parseToken token with
  | .error _ => parseErrors token
  | .ok c =>
    match key with
    | .error _ => []
    | .ok k =>
      match decodeBlock decodeByte (decrypt cfg c k) with
      | .error e => [e]
      | .ok _ => []

/-- Every host error that applies to an invocation (60_exceptions.md R329). -/
def applicableErrors (decodeByte : UInt8 → Option Char) (cfg : Config) (world : BatchWorld) : List HostError :=
  (match world.input with
    | none => [.ioInput]
    | some text => (tokensOf text).flatMap (tokenErrors decodeByte cfg (parseToken world.key))) ++
  parseErrors world.key ++
  (if world.sinkWritable then [] else [.ioOutput])

/-- The error a failed invocation reports: any one of the applicable kinds (60_exceptions.md R329), by a free
choice. -/
def reportedError (decodeByte : UInt8 → Option Char) (world : BatchWorld) (met : HostError) : HostError :=
  let kinds := applicableErrors decodeByte Config.hardware world
  kinds.getD (Config.freeErrorChoice world.freeIndex % kinds.length) met

/-- A failed invocation: no output string, and the sink holds any value (60_exceptions.md R328). -/
def batchFailure (decodeByte : UInt8 → Option Char) (world : BatchWorld) (met : HostError) (events : List BatchEvent)
    (s : State) : BatchResult where
  outcome := .failed (reportedError decodeByte world met)
  sink := Config.freeSink world.freeIndex
  events := events
  core := s

/-- The end of an invocation that decrypted its tokens: the whole string is written to the sink, overwriting its
contents (60_exceptions.md R324 step 5), or the write fails (R328). A write that fails is recorded by no event: R327 does
not say whether it counts as the invocation's one write access (DESIGN CHOICE, log entry 27). -/
def batchWrite (decodeByte : UInt8 → Option Char) (world : BatchWorld) (output : List Char)
    (events : List BatchEvent) (s : State) : BatchResult :=
  if world.sinkWritable then
    { outcome := .done output
      sink := output
      events := events ++ [.writeSink output]
      core := s }
  else batchFailure decodeByte world .ioOutput events s

/-- One batch invocation (60_exceptions.md R324 to R329): one read of the input, the DECs in token order, one write of
the sink; every host error is fatal. -/
def runBatch (decodeByte : UInt8 → Option Char) (world : BatchWorld) (s : State) :
    Host.Outcome BatchResult Fault Refusal :=
  match world.input with
  | none => .next (batchFailure decodeByte world .ioInput [.readInput] s)
  | some text =>
    match parseToken world.key with
    | .error e => .next (batchFailure decodeByte world e [.readInput] s)
    | .ok k =>
      match runTokens decodeByte k (tokensOf text) s with
      | .fault f => .fault f
      | .refused r => .refused r
      | .next t =>
        let events := .readInput :: t.issued.map .issue
        match t.output with
        | .error e => .next (batchFailure decodeByte world e events t.core)
        | .ok output => .next (batchWrite decodeByte world output events t.core)

end Sys2Proof.Machine
end

