-- ==== Sys2Proof/Safety.lean ====
section
/-! DEFINITION. What counts as a failed run, the invariant that every step keeps, and the spec's own tables of digits and
letters, in the terms the statements use. -/

namespace Sys2Proof.Machine

/-- The opcode is reserved, 0x9 to 0xF (30_encoding.md R65). -/
abbrev ReservedOp (op : BitVec 4) : Prop := 9 ≤ op.toNat

/-- A run with a fault among its outcomes has failed (70_reset_and_hazards.md R405). -/
def State.runFailed (s : State) : Bool := s.outcomes.any CmdOutcome.isFault

/-- A fault outcome names a reserved opcode: defined commands never fail (60_exceptions.md R300, R301). -/
def CmdOutcome.FaultIsReserved : CmdOutcome → Prop
  | .ok _ _ => True
  | .fault (.reservedOpcode op _ _) => ReservedOp op

/-- The response ports show an outcome: `err`, and `r0` and `r1` where the outcome has them (30_encoding.md R61). -/
def State.Shows (s : State) : CmdOutcome → Prop
  | .ok r0 r1 => s.rspErr = 0 ∧ s.rspR0 = r0 ∧ s.rspR1 = r1
  | .fault _ => s.rspErr = 1

/-- The invariant of the interface: the fault mark says whether the run has failed (60_exceptions.md R300); only
reserved opcodes have faulted (R301); and once a command has been answered the ports show the last outcome
(30_encoding.md R61). That the ports HOLD the last response while the core is idle is the model's choice, not the
spec's (DESIGN CHOICE, log entry 26: 10_state.md R33 and 70_reset_and_hazards.md R405 leave it open). -/
structure State.Inv (s : State) : Prop where
  /-- The fault mark is the run's failure. -/
  mark : s.faultMark = s.runFailed
  /-- Every fault names a reserved opcode. -/
  faults : ∀ o ∈ s.outcomes, o.FaultIsReserved
  /-- A response that exists is the last outcome's, and the ports hold it (DESIGN CHOICE, log entry 26). -/
  shown : s.responded = true → ∃ o, s.outcomes.getLast? = some o ∧ s.Shows o

/-- The hexadecimal digits with their values, as 60_exceptions.md R321 lists them: `0-9`, `a-f`, `A-F`. The first ten are
the decimal digits of 30_encoding.md R68. -/
def hexDigitTable : List (Char × Nat) :=
  [('0', 0), ('1', 1), ('2', 2), ('3', 3), ('4', 4), ('5', 5), ('6', 6), ('7', 7), ('8', 8), ('9', 9),
   ('a', 10), ('b', 11), ('c', 12), ('d', 13), ('e', 14), ('f', 15),
   ('A', 10), ('B', 11), ('C', 12), ('D', 13), ('E', 14), ('F', 15)]

/-- Each capital letter with its small letter. -/
def letterPairs : List (Char × Char) :=
  [('A', 'a'), ('B', 'b'), ('C', 'c'), ('D', 'd'), ('E', 'e'), ('F', 'f'), ('G', 'g'), ('H', 'h'),
   ('I', 'i'), ('J', 'j'), ('K', 'k'), ('L', 'l'), ('M', 'm'), ('N', 'n'), ('O', 'o'), ('P', 'p'),
   ('Q', 'q'), ('R', 'r'), ('S', 's'), ('T', 't'), ('U', 'u'), ('V', 'v'), ('W', 'w'), ('X', 'x'), ('Y', 'y'), ('Z', 'z')]

/-- The characters the model takes as white space (DESIGN CHOICE, log entry 15): space, tab, line feed, vertical tab, form
feed, carriage return. -/
def spaceTable : List Char := [' ', '\t', '\n', '\x0b', '\x0c', '\r']

/-- A word spells a name given in capitals: letter by letter the capital or its small letter (30_encoding.md R68). -/
def Spells (word name : List Char) : Prop :=
  List.Forall₂ (fun c capital => c = capital ∨ (capital, c) ∈ letterPairs) word name

/-- The number that a list of digits with their values writes in a base, the first the most significant. -/
def digitsValue (base : Nat) (digits : List (Char × Nat)) : Nat :=
  digits.foldl (fun acc d => acc * base + d.2) 0

/-- A text writes a number as an immediate of 30_encoding.md R68: `0x` and hexadecimal digits, or decimal digits. -/
def WritesImmediate (text : List Char) (v : Nat) : Prop :=
  (∃ digits : List (Char × Nat), digits ≠ [] ∧ (∀ d ∈ digits, d ∈ hexDigitTable) ∧
    text = '0' :: 'x' :: digits.map Prod.fst ∧ v = digitsValue 16 digits) ∨
  (∃ digits : List (Char × Nat), digits ≠ [] ∧ (∀ d ∈ digits, d ∈ hexDigitTable.take 10) ∧
    text = digits.map Prod.fst ∧ v = digitsValue 10 digits)

/-- A text of white space alone. -/
def AllSpace (text : List Char) : Prop := ∀ c ∈ text, c ∈ spaceTable

end Sys2Proof.Machine
end

