-- ==== Sys2Proof/Certificates/Slice0/Obligations.lean ====
section
/-! DEFINITION. The statements for the provers. Each docstring names the rule of spec/ it formalises. `{ s with … }`
says the frame: every field not named is the old one. -/

open Sys2Proof Sys2Proof.Machine

/-! ### Encoding -/

/-- 30_encoding.md R60, R63, R66: a command's word decodes to the command, and a word's command encodes to the word,
for every value of every field. -/
def Obligations.DecodeAndEncodeAgree : Prop :=
  (∀ i : Instr, decode (encode i) = i) ∧ ∀ w : CmdWord, encode (decode w) = w

/-- 30_encoding.md R66: each of the 2^36 words decodes to the command its `op` selects, with `a` and `b` its fields. -/
def Obligations.OpcodeSelectsTheCommand : Prop :=
  ∀ w : CmdWord,
    let op := w.extractLsb' 32 4
    let a := w.extractLsb' 16 16
    let b := w.extractLsb' 0 16
    (op = 0x0 → decode w = .sub a b) ∧ (op = 0x1 → decode w = .subi a b) ∧
    (op = 0x2 → decode w = .mix a b) ∧ (op = 0x3 → decode w = .mixi a b) ∧
    (op = 0x4 → decode w = .shr a b) ∧ (op = 0x5 → decode w = .ark a b) ∧
    (op = 0x6 → decode w = .keyexp a b) ∧ (op = 0x7 → decode w = .dec a b) ∧
    (op = 0x8 → decode w = .gfmul a b) ∧ (op = 0x9 → decode w = .reserved9 a b) ∧
    (op = 0xA → decode w = .reservedA a b) ∧ (op = 0xB → decode w = .reservedB a b) ∧
    (op = 0xC → decode w = .reservedC a b) ∧ (op = 0xD → decode w = .reservedD a b) ∧
    (op = 0xE → decode w = .reservedE a b) ∧ (op = 0xF → decode w = .reservedF a b)

/-- 95_test_vectors.md, words of L2 written out: one of each family decodes to the command beside it. -/
def Obligations.WrittenWordsDecode : Prop :=
  decode 0x001230000 = .sub 0x0123 0x0000 ∧ decode 0x101230000 = .subi 0x0123 0x0000 ∧
  decode 0x212340000 = .mix 0x1234 0x0000 ∧ decode 0x312340000 = .mixi 0x1234 0x0000 ∧
  decode 0x412340000 = .shr 0x1234 0x0000 ∧ decode 0x51234FFFF = .ark 0x1234 0xFFFF ∧
  decode 0x60000A73B = .keyexp 0x0000 0xA73B ∧ decode 0x71C4D1234 = .dec 0x1C4D 0x1234 ∧
  decode 0x8FFF40014 = .gfmul 0xFFF4 0x0014 ∧ decode 0xF12345678 = .reservedF 0x1234 0x5678

/-- 30_encoding.md R61: the 33-bit response word holds the three ports at their places. -/
def Obligations.ResponseWordFields : Prop :=
  ∀ s : State, s.rspWord.extractLsb' 32 1 = s.rspErr ∧ s.rspWord.extractLsb' 16 16 = s.rspR0 ∧
    s.rspWord.extractLsb' 0 16 = s.rspR1

/-- 30_encoding.md R69: the assembler writes 0 into ignored fields; a word with an ignored field nonzero prints as
`.cmd` with its comment; disassembling and then assembling gives every word back. The spacing of the printed text, the
blanks around the semicolon among it, is the model's choice (DESIGN CHOICE, log entry 14), which R69 does not give. -/
def Obligations.DisassemblyAssemblesBack : Prop :=
  (∀ w : CmdWord, assembleLine (disassemble w) = .ok (some w)) ∧
  (∀ (m : Mnemonic) (immediates : List Nat) (t : Source) (w : CmdWord), m ≠ .cmd →
    sourceOf m immediates = some t → assemble t = .ok w → (decode w).canonical = true) ∧
  (∀ (w : CmdWord) (form : List Char), mnemonicForm (decode w) = some form → (decode w).canonical = false →
    disassemble w = printRaw w ++ [' ', ';', ' '] ++ form ++ ignoredFieldNonzero)

/-- 30_encoding.md R68: where the assembler puts each operand, and that an immediate out of its range is refused, not
truncated. -/
def Obligations.AssemblerPlacesOperands : Prop :=
  (∀ v k : Block,
    assemble (.sub v.toNat) = .ok (encode (.sub v 0)) ∧ assemble (.subi v.toNat) = .ok (encode (.subi v 0)) ∧
    assemble (.mix v.toNat) = .ok (encode (.mix v 0)) ∧ assemble (.mixi v.toNat) = .ok (encode (.mixi v 0)) ∧
    assemble (.shr v.toNat) = .ok (encode (.shr v 0)) ∧ assemble (.keyexp k.toNat) = .ok (encode (.keyexp 0 k)) ∧
    assemble (.ark v.toNat k.toNat) = .ok (encode (.ark v k)) ∧
    assemble (.dec v.toNat k.toNat) = .ok (encode (.dec v k))) ∧
  (∀ x y : Nibble, assemble (.gfmul x.toNat y.toNat) = .ok (encode (.gfmul (zext16 x) (zext16 y)))) ∧
  (∀ w : CmdWord, assemble (.raw w.toNat) = .ok w) ∧
  (∀ v k : Nat, 2 ^ 16 ≤ v →
    assemble (.sub v) = .error .immediateOutOfRange ∧ assemble (.subi v) = .error .immediateOutOfRange ∧
    assemble (.mix v) = .error .immediateOutOfRange ∧ assemble (.mixi v) = .error .immediateOutOfRange ∧
    assemble (.shr v) = .error .immediateOutOfRange ∧ assemble (.keyexp v) = .error .immediateOutOfRange ∧
    assemble (.ark v k) = .error .immediateOutOfRange ∧ assemble (.ark k v) = .error .immediateOutOfRange ∧
    assemble (.dec v k) = .error .immediateOutOfRange ∧ assemble (.dec k v) = .error .immediateOutOfRange) ∧
  (∀ x y : Nat, 2 ^ 4 ≤ x →
    assemble (.gfmul x y) = .error .immediateOutOfRange ∧ assemble (.gfmul y x) = .error .immediateOutOfRange) ∧
  (∀ w : Nat, 2 ^ 36 ≤ w → assemble (.raw w) = .error .immediateOutOfRange)

/-- 30_encoding.md R68: a word is read as a mnemonic exactly if it spells it, each letter capital or small, by the spec's
spellings and an independent pairing of letters. That the directive `.cmd` is read in either case too is the model's
choice (DESIGN CHOICE, log entry 14): R68 says it of mnemonics. -/
def Obligations.MnemonicsAreCaseInsensitive : Prop :=
  (∀ p ∈ [(Mnemonic.sub, ['S', 'U', 'B']), (.subi, ['S', 'U', 'B', 'I']), (.mix, ['M', 'I', 'X']),
      (.mixi, ['M', 'I', 'X', 'I']), (.shr, ['S', 'H', 'R']), (.ark, ['A', 'R', 'K']),
      (.keyexp, ['K', 'E', 'Y', 'E', 'X', 'P']), (.dec, ['D', 'E', 'C']), (.gfmul, ['G', 'F', 'M', 'U', 'L'])],
    ∀ word : List Char, readMnemonic word = some p.1 ↔ Spells word p.2) ∧
  ∀ word : List Char, readMnemonic word = some .cmd ↔ Spells word ['.', 'C', 'M', 'D']

/-! ### Steps, runs and reset -/

/-- 20_memory.md R48: a step with a command presented takes it off the ports and is `exec` of the decoded command,
with the commands behind it left in order. -/
def Obligations.StepRunsTheDecodedCommand : Prop :=
  ∀ (s : State) (w : CmdWord) (rest : List CmdWord),
    step { s with commands := w :: rest } = exec (decode w) { s with commands := rest }

/-- 60_exceptions.md R320, log entry 6 (DEDUCED): with no command presented a step changes nothing. That the response
ports are among what it leaves is the model's choice (DESIGN CHOICE, log entry 26). -/
def Obligations.IdleCoreDoesNothing : Prop :=
  ∀ s : State, step { s with commands := [] } = .next { s with commands := [] }

/-- 10_state.md R27: every command presented is answered with exactly one response, its outcome a function of its word
and the tables. That a step without a command answers a next state is log entry 6 (DEDUCED from 60_exceptions.md R320),
and that the machine does not stop at a reserved opcode is log entry 2 (DEDUCED from R300): the model's readings. -/
def Obligations.EveryStepAnswersOneCommand : Prop :=
  ∀ s : State, ∃ t, step s = .next t ∧ t.commands = s.commands.drop 1 ∧
    t.outcomes = s.outcomes ++ observation Config.hardware (s.commands.take 1)

/-- 70_reset_and_hazards.md R405, 20_memory.md R48: from any state, a run of `words` answers them all in order, one a
step; its observation is the list of their outcomes, and it has failed exactly if it failed before or one of them has
a reserved opcode. That the run goes on past a reserved opcode is log entry 2 (DEDUCED from 60_exceptions.md R300). -/
def Obligations.RunObservesEveryCommandInOrder : Prop :=
  ∀ (s : State) (words rest : List CmdWord), ∃ t : State,
    Host.Core.run Sys2Proof.core words.length ({ s with commands := words ++ rest } : State) = .next t ∧
      t.commands = rest ∧ t.outcomes = s.outcomes ++ observation Config.hardware words ∧
      (t.faultMark = true ↔ s.faultMark = true ∨ ∃ w ∈ words, ReservedOp (w.extractLsb' 32 4))

/-- 20_memory.md R49: a command's response is the same whatever the state it comes in, and so whatever commands came
before it and stand behind it. -/
def Obligations.ResponseDependsOnTheCommandAlone : Prop :=
  ∀ (s s' : State) (w : CmdWord), ∃ (t t' : State) (o : CmdOutcome),
    step (s.present w) = .next t ∧ step (s'.present w) = .next t' ∧
      t.outcomes = s.outcomes ++ [o] ∧ t'.outcomes = s'.outcomes ++ [o] ∧ t.Shows o ∧ t'.Shows o

/-- 60_exceptions.md R301: a defined command never fails, for any operands; a reserved opcode always does (R300), and the
choice depends on `op` alone (R303). That a reserved opcode answers a next state, with the fault recorded, is log entry
2 (DEDUCED from R300). -/
def Obligations.OnlyReservedOpcodesFail : Prop :=
  ∀ (s : State) (w : CmdWord), ∃ t, step (s.present w) = .next t ∧
    ((w.extractLsb' 32 4).toNat ≤ 8 →
      (∃ r0 r1, t.outcomes = s.outcomes ++ [.ok r0 r1]) ∧ t.rspErr = 0 ∧ t.faultMark = s.faultMark) ∧
    (ReservedOp (w.extractLsb' 32 4) →
      t.outcomes =
          s.outcomes ++ [.fault (.reservedOpcode (w.extractLsb' 32 4) (w.extractLsb' 16 16) (w.extractLsb' 0 16))] ∧
        t.rspErr = 1 ∧ t.faultMark = true)

/-- 60_exceptions.md R300, R301, 30_encoding.md R61: every step keeps the invariant of the interface. That the ports hold
the last response over an idle step is the model's choice (DESIGN CHOICE, log entry 26). -/
def Obligations.StepKeepsInv : Prop :=
  ∀ s t : State, s.Inv → step s = .next t → t.Inv

/-- The machine right after reset meets the invariant of StepKeepsInv. That the run's record is empty there is the
model's choice (DESIGN CHOICE, log entry 23). -/
def Obligations.ResetMeetsInv : Prop := State.reset.Inv

/-- 60_exceptions.md R300: the fault mark is kept for the whole run, which goes on past a reserved opcode (log entry 2,
DEDUCED) and idles once its commands are answered (log entry 6, DEDUCED). -/
def Obligations.FaultMarkIsKept : Prop :=
  ∀ (s : State) (n : Nat), ∃ t : State,
    Host.Core.run Sys2Proof.core n ({ s with faultMark := true } : State) = .next t ∧ t.faultMark = true

/-- 70_reset_and_hazards.md R400, 10_state.md R33: after reset the core is idle, no response exists, and a command is
answered at once. That the run's observation is empty and its fault mark clear there is the model's choice (DESIGN
CHOICE, log entry 23): R405 gives them no reset value. -/
def Obligations.ResetLeavesTheCoreIdle : Prop :=
  State.reset.commands = [] ∧ State.reset.responded = false ∧ State.reset.outcomes = [] ∧
  State.reset.faultMark = false ∧
  ∀ w : CmdWord, ∃ t, step (State.reset.present w) = .next t ∧ t.commands = [] ∧
    t.outcomes = observation Config.hardware [w]

/-- 70_reset_and_hazards.md R400, log entry 9: reset between commands leaves the core without a response and changes no
later outcome. -/
def Obligations.ResetHasNoArchitecturalEffect : Prop :=
  ∀ (s : State) (w : CmdWord), s.assertReset.responded = false ∧ ∃ (t u : State) (o : CmdOutcome),
    step (s.present w) = .next t ∧ step (s.assertReset.present w) = .next u ∧
      t.outcomes = s.outcomes ++ [o] ∧ u.outcomes = s.outcomes ++ [o] ∧ t.Shows o ∧ u.Shows o ∧
      u.commands = t.commands ∧ u.faultMark = t.faultMark

/-! ### SubstitutionBox -/

/-- 10_state.md R22: the S-box is a bijection of the nibbles and `SBOX_INV` is its inverse, whatever the table. -/
def Obligations.SboxTablesAreInverse : Prop :=
  ∀ cfg : Config, Function.Bijective (sboxNib cfg) ∧ ∀ n m : Nibble, sboxNib cfg n = m ↔ sboxInvNib cfg m = n

/-- 40_substitution.md R101: SUB. -/
def Obligations.SubAnswers : Prop :=
  (∀ a b : Block, decode (0x0#4 ++ a ++ b) = .sub a b) ∧
  (∀ (a b : Block) (s : State),
    exec (.sub a b) s = .next { s with
      rspErr := 0
      rspR0 := substitute Config.hardware a false
      rspR1 := 0x0000
      responded := true
      outcomes := s.outcomes ++ [.ok (substitute Config.hardware a false) 0x0000] }) ∧
  (∀ cfg : Config, substitute cfg 0x0000 false = asm (sboxNib cfg 0) (sboxNib cfg 0) (sboxNib cfg 0) (sboxNib cfg 0)) ∧
  (∀ (cfg : Config) (a : Block) (i j : Fin 4), nib a i = nib a j →
    nib (substitute cfg a false) i = nib (substitute cfg a false) j) ∧
  (∀ cfg : Config, substitute cfg 0x0123 false = asm (sboxNib cfg 0) (sboxNib cfg 1) (sboxNib cfg 2) (sboxNib cfg 3)) ∧
  substitute Config.candidate 0x0123 false = 0x94AB

/-- 40_substitution.md R102: SUBI. -/
def Obligations.SubiAnswers : Prop :=
  (∀ a b : Block, decode (0x1#4 ++ a ++ b) = .subi a b) ∧
  (∀ (a b : Block) (s : State),
    exec (.subi a b) s = .next { s with
      rspErr := 0
      rspR0 := substitute Config.hardware a true
      rspR1 := 0x0000
      responded := true
      outcomes := s.outcomes ++ [.ok (substitute Config.hardware a true) 0x0000] }) ∧
  (∀ cfg : Config, substitute cfg 0x0000 true =
    asm (sboxInvNib cfg 0) (sboxInvNib cfg 0) (sboxInvNib cfg 0) (sboxInvNib cfg 0)) ∧
  (∀ cfg : Config, substitute cfg 0x0123 true =
    asm (sboxInvNib cfg 0) (sboxInvNib cfg 1) (sboxInvNib cfg 2) (sboxInvNib cfg 3)) ∧
  substitute Config.candidate 0x0123 true = 0xA59B

/-- 40_substitution.md R104: output nibble i depends on input nibble i alone, through the selected table; no nibble
moves. -/
def Obligations.SubstitutionActsNibbleByNibble : Prop :=
  ∀ (cfg : Config) (b : Block) (u : Bool) (i : Fin 4),
    nib (substitute cfg b u) i = (if u then sboxInvNib cfg else sboxNib cfg) (nib b i)

/-- 40_substitution.md R103: SUBI undoes SUB and SUB undoes SUBI, for every block and every bijective S-box, as
functions and as commands. -/
def Obligations.SubstitutionRoundTrips : Prop :=
  (∀ (cfg : Config) (b : Block),
    substitute cfg (substitute cfg b false) true = b ∧ substitute cfg (substitute cfg b true) false = b) ∧
  ∀ (a b b' : Block) (s : State),
    (∃ t u, exec (.sub a b) s = .next t ∧ exec (.subi t.rspR0 b') t = .next u ∧ u.rspR0 = a) ∧
    (∃ t u, exec (.subi a b) s = .next t ∧ exec (.sub t.rspR0 b') t = .next u ∧ u.rspR0 = a)

/-! ### ShiftRow -/

/-- 41_shiftrow.md R120: SHR exchanges nibbles 0 and 2 and leaves nibbles 1 and 3, here as the rule's bit-level
identity, with the command's encoding and frame (R121). -/
def Obligations.ShrAnswers : Prop :=
  (∀ a b : Block, decode (0x4#4 ++ a ++ b) = .shr a b) ∧
  (∀ b : Block, shiftRow b = asm (nib b 2) (nib b 1) (nib b 0) (nib b 3) ∧
    shiftRow b = (b.extractLsb' 4 4).setWidth 16 <<< 12 ||| (b.extractLsb' 8 4).setWidth 16 <<< 8 |||
      (b.extractLsb' 12 4).setWidth 16 <<< 4 ||| (b.extractLsb' 0 4).setWidth 16) ∧
  (∀ (a b : Block) (s : State),
    exec (.shr a b) s = .next { s with
      rspErr := 0
      rspR0 := shiftRow a
      rspR1 := 0x0000
      responded := true
      outcomes := s.outcomes ++ [.ok (shiftRow a) 0x0000] }) ∧
  shiftRow 0x1234 = 0x3214

/-- 41_shiftrow.md R121, corner cases: the blocks SHR leaves as they are, 4096 of the 65536. -/
def Obligations.ShiftRowFixedPoints : Prop :=
  (∀ b : Block, shiftRow b = b ↔ nib b 0 = nib b 2) ∧
  Nat.card { b : Block // shiftRow b = b } = 4096

/-- 41_shiftrow.md R122: SHR is its own inverse, as a function and as a command. -/
def Obligations.ShiftRowIsAnInvolution : Prop :=
  (∀ b : Block, shiftRow (shiftRow b) = b) ∧
  ∀ (a b b' : Block) (s : State),
    ∃ t u, exec (.shr a b) s = .next t ∧ exec (.shr t.rspR0 b') t = .next u ∧ u.rspR0 = a

/-! ### The GF(2^4) multiplier and MixColumns -/

/-- 42_mixcolumns.md R140: `gfMul` is the product of the operands' polynomials over GF(2) modulo x^4+x+1. -/
def Obligations.GfMulIsTheFieldProduct : Prop :=
  let poly : Nibble → Polynomial (ZMod 2) := fun n =>
    ∑ i : Fin 4, if n[i] then Polynomial.X ^ i.val else 0
  ∀ a b : Nibble,
    (Polynomial.X ^ 4 + Polynomial.X + 1 : Polynomial (ZMod 2)) ∣ poly a * poly b - poly (gfMul a b)

/-- 42_mixcolumns.md R141: the laws of the multiplier. -/
def Obligations.GfMulLaws : Prop :=
  (∀ x : Nibble, gfMul 1 x = x ∧ gfMul 0 x = 0) ∧
  (∀ a b : Nibble, gfMul a b = gfMul b a) ∧
  (∀ a b c : Nibble, gfMul a (b ^^^ c) = gfMul a b ^^^ gfMul a c ∧ gfMul (b ^^^ c) a = gfMul b a ^^^ gfMul c a) ∧
  (∀ a : Nibble, a ≠ 0 → ∃ b, gfMul a b = 1) ∧
  gfMul 2 9 = 1 ∧ gfMul 4 13 = 1

/-- 42_mixcolumns.md R142: GFMUL. -/
def Obligations.GfmulAnswers : Prop :=
  (∀ a b : Block, decode (0x8#4 ++ a ++ b) = .gfmul a b) ∧
  (∀ (a b : Block) (s : State),
    let product := (gfMul (a.extractLsb' 0 4) (b.extractLsb' 0 4)).setWidth 16
    exec (.gfmul a b) s = .next { s with
      rspErr := 0
      rspR0 := product
      rspR1 := 0x0000
      responded := true
      outcomes := s.outcomes ++ [.ok product 0x0000] }) ∧
  (∀ (x : Nibble) (s : State),
    (∃ t, exec (.gfmul 0 (zext16 x)) s = .next t ∧ t.rspR0 = 0x0000) ∧
    (∃ t, exec (.gfmul (zext16 x) 0) s = .next t ∧ t.rspR0 = 0x0000) ∧
    (∃ t, exec (.gfmul 1 (zext16 x)) s = .next t ∧ t.rspR0 = zext16 x) ∧
    (∃ t, exec (.gfmul (zext16 x) 1) s = .next t ∧ t.rspR0 = zext16 x)) ∧
  (∀ s : State, ∃ t1 t2 t3 t4,
    exec (.gfmul 0x4 0x4) s = .next t1 ∧ t1.rspR0 = 0x0003 ∧ exec (.gfmul 0xF 0xF) s = .next t2 ∧ t2.rspR0 = 0x000A ∧
    exec (decode 0x8FFF40014) s = .next t3 ∧ t3.rspR0 = 0x0003 ∧ exec (.gfmul 0x9 0x2) s = .next t4 ∧ t4.rspR0 = 0x0001)

/-- 42_mixcolumns.md R143: the column transform, by the entries of the selected matrix. -/
def Obligations.MixColumnsEquations : Prop :=
  ∀ (b : Block) (useInverse : Bool),
    let p : Nibble := if useInverse then 9 else 1
    let q : Nibble := if useInverse then 2 else 4
    mixColumns b useInverse =
      asm (gfMul p (nib b 0) ^^^ gfMul q (nib b 1)) (gfMul q (nib b 0) ^^^ gfMul p (nib b 1))
        (gfMul p (nib b 2) ^^^ gfMul q (nib b 3)) (gfMul q (nib b 2) ^^^ gfMul p (nib b 3))

/-- 42_mixcolumns.md R144: MIX, with its only fixed point. -/
def Obligations.MixAnswers : Prop :=
  (∀ a b : Block, decode (0x2#4 ++ a ++ b) = .mix a b) ∧
  (∀ (a b : Block) (s : State),
    exec (.mix a b) s = .next { s with
      rspErr := 0
      rspR0 := mixColumns a false
      rspR1 := 0x0000
      responded := true
      outcomes := s.outcomes ++ [.ok (mixColumns a false) 0x0000] }) ∧
  (∀ a : Block, mixColumns a false = a ↔ a = 0x0000) ∧
  mixColumns 0x1111 false = 0x5555 ∧ mixColumns 0xFFFF false = 0x6666 ∧ mixColumns 0x1234 false = 0x9608 ∧
  (∀ a : Block, (nib a 0 = 0 ∧ nib a 1 = 0 → nib (mixColumns a false) 0 = 0 ∧ nib (mixColumns a false) 1 = 0) ∧
    (nib a 2 = 0 ∧ nib a 3 = 0 → nib (mixColumns a false) 2 = 0 ∧ nib (mixColumns a false) 3 = 0))

/-- 42_mixcolumns.md R145: MIXI. -/
def Obligations.MixiAnswers : Prop :=
  (∀ a b : Block, decode (0x3#4 ++ a ++ b) = .mixi a b) ∧
  (∀ (a b : Block) (s : State),
    exec (.mixi a b) s = .next { s with
      rspErr := 0
      rspR0 := mixColumns a true
      rspR1 := 0x0000
      responded := true
      outcomes := s.outcomes ++ [.ok (mixColumns a true) 0x0000] }) ∧
  mixColumns 0x0000 true = 0x0000 ∧ mixColumns 0x1111 true = 0xBBBB ∧ mixColumns 0xFFFF true = 0x3333 ∧
  mixColumns 0x0100 true = 0x2900 ∧ mixColumns 0x1234 true = 0xD304

/-- 42_mixcolumns.md R146: each column pair of the result depends on the same column pair of the block alone. -/
def Obligations.MixColumnsActsPairByPair : Prop :=
  ∀ (b c : Block) (u : Bool),
    (nib b 0 = nib c 0 → nib b 1 = nib c 1 →
      nib (mixColumns b u) 0 = nib (mixColumns c u) 0 ∧ nib (mixColumns b u) 1 = nib (mixColumns c u) 1) ∧
    (nib b 2 = nib c 2 → nib b 3 = nib c 3 →
      nib (mixColumns b u) 2 = nib (mixColumns c u) 2 ∧ nib (mixColumns b u) 3 = nib (mixColumns c u) 3)

/-- 42_mixcolumns.md R147: MIXI undoes MIX and MIX undoes MIXI, for every block, as functions and as commands, since
the matrices are inverse over GF(2^4). -/
def Obligations.MixColumnsRoundTrips : Prop :=
  (1 ^^^ gfMul 4 4 = 2 ∧ gfMul 2 9 = 1 ∧ gfMul 9 4 = 2) ∧
  (∀ b : Block, mixColumns (mixColumns b false) true = b ∧ mixColumns (mixColumns b true) false = b) ∧
  ∀ (a b b' : Block) (s : State),
    (∃ t u, exec (.mix a b) s = .next t ∧ exec (.mixi t.rspR0 b') t = .next u ∧ u.rspR0 = a) ∧
    (∃ t u, exec (.mixi a b) s = .next t ∧ exec (.mix t.rspR0 b') t = .next u ∧ u.rspR0 = a)

/-! ### KeySchedule, AddRoundKey and the decrypt pipeline -/

/-- 43_keyschedule.md R160: the round keys, word by word from the master key, for every S-box. -/
def Obligations.KeyExpandEquations : Prop :=
  ∀ (cfg : Config) (k : Block),
    let w4 := nib k 0 ^^^ sboxNib cfg (nib k 3) ^^^ 0xE
    let w5 := nib k 1 ^^^ w4
    let w6 := nib k 2 ^^^ w5
    let w7 := nib k 3 ^^^ w6
    let w8 := w4 ^^^ sboxNib cfg w7 ^^^ 0xA
    let w9 := w5 ^^^ w8
    let w10 := w6 ^^^ w9
    let w11 := w7 ^^^ w10
    keyExpand cfg k = (asm w4 w5 w6 w7, asm w8 w9 w10 w11)

/-- 43_keyschedule.md R161: KEYEXP. -/
def Obligations.KeyexpAnswers : Prop :=
  (∀ a b : Block, decode (0x6#4 ++ a ++ b) = .keyexp a b) ∧
  (∀ (a b : Block) (s : State),
    exec (.keyexp a b) s = .next { s with
      rspErr := 0
      rspR0 := (keyExpand Config.hardware b).1
      rspR1 := (keyExpand Config.hardware b).2
      responded := true
      outcomes := s.outcomes ++ [.ok (keyExpand Config.hardware b).1 (keyExpand Config.hardware b).2] }) ∧
  (∀ cfg : Config,
    let u := sboxNib cfg 0 ^^^ 0xE
    let v := u ^^^ sboxNib cfg u ^^^ 0xA
    keyExpand cfg 0x0000 = (asm u u u u, asm v (u ^^^ v) v (u ^^^ v))) ∧
  keyExpand Config.identity 0x0000 = (0xEEEE, 0xA4A4) ∧
  keyExpand Config.identity 0xA73B = (0xF8B0, 0x5D66) ∧ keyExpand Config.candidate 0xA73B = (0x7038, 0xBB80)

/-- 44_addroundkey.md R180, R181: ARK. -/
def Obligations.ArkAnswers : Prop :=
  (∀ a b : Block, decode (0x5#4 ++ a ++ b) = .ark a b) ∧
  (∀ (a b : Block) (s : State),
    exec (.ark a b) s = .next { s with
      rspErr := 0
      rspR0 := a ^^^ b
      rspR1 := 0x0000
      responded := true
      outcomes := s.outcomes ++ [.ok (a ^^^ b) 0x0000] }) ∧
  (∀ a b : Block, addRoundKey a b = a ^^^ b ∧ addRoundKey a 0x0000 = a ∧ addRoundKey a a = 0x0000 ∧
    addRoundKey a 0xFFFF = ~~~a ∧ addRoundKey a b = addRoundKey b a) ∧
  addRoundKey 0x1234 0xFFFF = 0xEDCB

/-- 44_addroundkey.md R182: adding a round key twice gives the block back, as a function and as commands. -/
def Obligations.AddRoundKeyIsSelfInverse : Prop :=
  (∀ b k : Block, addRoundKey (addRoundKey b k) k = b) ∧
  ∀ (b k : Block) (s : State),
    ∃ t u, exec (.ark b k) s = .next t ∧ exec (.ark t.rspR0 k) t = .next u ∧ u.rspR0 = b

/-- 45_decrypt.md R201: DEC. Different ciphertexts under one key give different plaintexts. -/
def Obligations.DecAnswers : Prop :=
  (∀ a b : Block, decode (0x7#4 ++ a ++ b) = .dec a b) ∧
  (∀ (a b : Block) (s : State),
    exec (.dec a b) s = .next { s with
      rspErr := 0
      rspR0 := decrypt Config.hardware a b
      rspR1 := 0x0000
      responded := true
      outcomes := s.outcomes ++ [.ok (decrypt Config.hardware a b) 0x0000] }) ∧
  (∀ (cfg : Config) (a a' b : Block), decrypt cfg a b = decrypt cfg a' b ↔ a = a') ∧
  decrypt Config.identity 0x0000 0x0000 = 0x3B3B ∧ decrypt Config.candidate 0x0000 0x0000 = 0x3C3C ∧
  decrypt Config.identity 0x1C4D 0x1234 = 0x35B5 ∧ decrypt Config.candidate 0x1C4D 0x1234 = 0xE15D

/-- 45_decrypt.md R200: decryption is key derivation and seven stages in this order, `k2` before `k1`, and DEC gives what
the host gets by issuing the stages as commands: KEYEXP, then SHR, ARK with k2, SUBI, SHR, MIXI, ARK with k1, SUBI, each
on the result before it (95_test_vectors.md P2, for all operands). -/
def Obligations.DecIsItsSevenStages : Prop :=
  (∀ (cfg : Config) (c k : Block),
    let s1 := shiftRow c
    let s2 := addRoundKey s1 (keyExpand cfg k).2
    let s3 := substitute cfg s2 true
    let s4 := shiftRow s3
    let s5 := mixColumns s4 true
    let s6 := addRoundKey s5 (keyExpand cfg k).1
    decrypt cfg c k = substitute cfg s6 true) ∧
  ∀ (c k ignored : Block) (s : State), ∃ keys t1 t2 t3 t4 t5 t6 t7 d,
    exec (.keyexp ignored k) s = .next keys ∧
    exec (.shr c ignored) keys = .next t1 ∧
    exec (.ark t1.rspR0 keys.rspR1) t1 = .next t2 ∧
    exec (.subi t2.rspR0 ignored) t2 = .next t3 ∧
    exec (.shr t3.rspR0 ignored) t3 = .next t4 ∧
    exec (.mixi t4.rspR0 ignored) t4 = .next t5 ∧
    exec (.ark t5.rspR0 keys.rspR0) t5 = .next t6 ∧
    exec (.subi t6.rspR0 ignored) t6 = .next t7 ∧
    exec (.dec c k) s = .next d ∧ d.rspR0 = t7.rspR0

/-- 45_decrypt.md R203: for each key, decryption is a bijection of the 16-bit blocks: every plaintext is the answer of
DEC to exactly one ciphertext, whatever the S-box. -/
def Obligations.DecryptionIsABijection : Prop :=
  (∀ (cfg : Config) (k : Block), Function.Bijective (fun c => decrypt cfg c k)) ∧
  ∀ (k p : Block) (s : State), ∃! c : Block, ∃ t, exec (.dec c k) s = .next t ∧ t.rspR0 = p

/-! ### Reserved opcodes, ignored fields, unproduced results -/

/-- 60_exceptions.md R300, log entries 2 and 3: a reserved opcode answers `err = 1` and records the fault with its
opcode and operands, code `E_RESERVED_OPCODE`; the mark is set; `r0` and `r1` are free; nothing else changes but the
model's own counter of free values. -/
def Obligations.ReservedOpcodesAnswerAnError : Prop :=
  (∀ (op : BitVec 4) (a b : Block), (Fault.reservedOpcode op a b).code = "E_RESERVED_OPCODE") ∧
  ∀ (a b : Block) (s : State), ∃ (r0 r1 : Block) (n : Nat),
    let answered : BitVec 4 → Host.Outcome State Fault Refusal := fun op =>
      .next { s with
        rspErr := 1
        rspR0 := r0
        rspR1 := r1
        responded := true
        outcomes := s.outcomes ++ [.fault (.reservedOpcode op a b)]
        faultMark := true
        freeCount := n }
    exec (.reserved9 a b) s = answered 0x9 ∧ exec (.reservedA a b) s = answered 0xA ∧
    exec (.reservedB a b) s = answered 0xB ∧ exec (.reservedC a b) s = answered 0xC ∧
    exec (.reservedD a b) s = answered 0xD ∧ exec (.reservedE a b) s = answered 0xE ∧
    exec (.reservedF a b) s = answered 0xF

/-- 30_encoding.md R62: a field that a command does not read has no effect: `b` of SUB, SUBI, MIX, MIXI and SHR, `a` of
KEYEXP, and the bits above the two nibbles of GFMUL. -/
def Obligations.IgnoredFieldsHaveNoEffect : Prop :=
  (∀ (a b b' : Block) (s : State),
    exec (.sub a b) s = exec (.sub a b') s ∧ exec (.subi a b) s = exec (.subi a b') s ∧
    exec (.mix a b) s = exec (.mix a b') s ∧ exec (.mixi a b) s = exec (.mixi a b') s ∧
    exec (.shr a b) s = exec (.shr a b') s ∧ exec (.keyexp b a) s = exec (.keyexp b' a) s) ∧
  ∀ (x y : Nibble) (h h' : BitVec 12) (s : State),
    exec (.gfmul (h ++ x) (h' ++ y)) s = exec (.gfmul (zext16 x) (zext16 y)) s

/-- 30_encoding.md R71: every defined command answers `err = 0`; all but KEYEXP give `r1 = 0`; GFMUL gives its product
zero-extended, so `r0[15:4] = 0`. -/
def Obligations.UnproducedResultsAreZero : Prop :=
  ∀ (w : CmdWord) (s : State), (w.extractLsb' 32 4).toNat ≤ 8 → ∃ t, step (s.present w) = .next t ∧ t.rspErr = 0 ∧
    (w.extractLsb' 32 4 ≠ 0x6 → t.rspR1 = 0x0000) ∧
    (w.extractLsb' 32 4 = 0x8 →
      t.rspR0 = zext16 (gfMul (w.extractLsb' 16 4) (w.extractLsb' 0 4)) ∧ t.rspR0.extractLsb' 4 12 = 0)

/-! ### The batch host -/

/-- 60_exceptions.md R321 to R323, 20_memory.md R42: the hex digits are those of R321 and no others, with their values;
exactly the texts of 1 to 4 of them parse, to the number they write, capitals and small letters alike; a block's four
digits parse to it; longer texts of hex digits are too long; a text with another character, or none at all, is
malformed. Where a text is both malformed and too long, both kinds apply, and that `parseToken` meets the malformed one
first is the model's choice (DESIGN CHOICE, log entry 18). -/
def Obligations.TokensParseAsHexNumbers : Prop :=
  (∀ (c : Char) (v : Nat), hexValue c = some v ↔ (c, v) ∈ hexDigitTable) ∧
  (∀ token : List Char, (∃ b, parseToken token = .ok b) ↔
    (1 ≤ token.length ∧ token.length ≤ 4 ∧ ∀ c ∈ token, ∃ v, (c, v) ∈ hexDigitTable)) ∧
  (∀ digits : List (Char × Nat), (∀ d ∈ digits, d ∈ hexDigitTable) → 1 ≤ digits.length → digits.length ≤ 4 →
    parseToken (digits.map Prod.fst) = .ok (BitVec.ofNat 16 (digitsValue 16 digits))) ∧
  (∀ digits : List Nibble, 1 ≤ digits.length → digits.length ≤ 4 →
    parseToken (digits.map hexDigit) =
      .ok (BitVec.ofNat 16 (digits.foldl (fun acc d => acc * 16 + d.toNat) 0))) ∧
  (∀ b : Block, parseToken [hexDigit (nib b 0), hexDigit (nib b 1), hexDigit (nib b 2), hexDigit (nib b 3)] = .ok b) ∧
  (∀ token : List Char, 4 < token.length → (∀ c ∈ token, ∃ v, (c, v) ∈ hexDigitTable) →
    parseToken token = .error .tokenTooLong) ∧
  (∀ (token : List Char) (c : Char), c ∈ token → (∀ v, (c, v) ∉ hexDigitTable) →
    parseToken token = .error .malformedHex ∧ HostError.malformedHex ∈ parseErrors token) ∧
  (∀ (token digits : List Char) (c : Char), c ∈ token → (∀ v, (c, v) ∉ hexDigitTable) →
    digits.Sublist token → 4 < digits.length → (∀ d ∈ digits, ∃ v, (d, v) ∈ hexDigitTable) →
    parseErrors token = [.malformedHex, .tokenTooLong]) ∧
  parseToken [] = .error .malformedHex ∧ parseToken ['7'] = .ok 0x0007 ∧ parseToken ['a', '0'] = .ok 0x00A0 ∧
  parseToken ['1', 'C', '4', 'D'] = .ok 0x1C4D

/-- 60_exceptions.md R324: where the input is there, the key and every token parse, every byte decodes and the sink can
be written, the sink receives the characters of the decrypted blocks in token order (none for no token), and the host
has read once, issued one DEC a token in order, and written once (R327). How the text is cut into tokens (R324 step 2) is
TokensAreTheWordsOfTheText. -/
def Obligations.BatchWritesTheDecryptedText : Prop :=
  ∀ (decodeByte : UInt8 → Option Char) (world : BatchWorld) (s : State) (text : List Char) (k : Block)
    (blocks : List Block) (chars : List (Char × Char)),
    world.input = some text → world.sinkWritable = true → parseToken world.key = .ok k →
    List.Forall₂ (fun token c => parseToken token = .ok c) (tokensOf text) blocks →
    List.Forall₂ (fun c (ch : Char × Char) =>
      decodeByte (UInt8.ofBitVec ((decrypt Config.hardware c k).extractLsb' 8 8)) = some ch.1 ∧
      decodeByte (UInt8.ofBitVec ((decrypt Config.hardware c k).extractLsb' 0 8)) = some ch.2) blocks chars →
    let output := chars.flatMap (fun ch => [ch.1, ch.2])
    ∃ r, runBatch decodeByte world s = .next r ∧ r.outcome = .done output ∧ r.sink = output ∧
      r.events = .readInput :: blocks.map (fun c => .issue (encode (.dec c k))) ++ [.writeSink output] ∧
      r.core.commands = s.commands ∧
      r.core.outcomes = s.outcomes ++ blocks.map (fun c => .ok (decrypt Config.hardware c k) 0x0000)

/-- 60_exceptions.md R329: an invocation ends in an output exactly when no host error applies, and otherwise it reports
one of the kinds that apply. Which kinds apply is the model's choice where R329 does not list them (DESIGN CHOICE):
H_IO_OUTPUT wherever the sink cannot be written, even if no write is reached (log entry 17), and both kinds for a token
malformed and too long (log entry 18). -/
def Obligations.BatchFailsExactlyWhenAnErrorApplies : Prop :=
  ∀ (decodeByte : UInt8 → Option Char) (world : BatchWorld) (s : State),
    ∃ r, runBatch decodeByte world s = .next r ∧
      ((∃ output, r.outcome = .done output) ↔ applicableErrors decodeByte Config.hardware world = []) ∧
      ∀ e, r.outcome = .failed e → e ∈ applicableErrors decodeByte Config.hardware world

/-- 60_exceptions.md R327: whatever the input, an invocation reads once, before any command; it issues nothing but DECs;
and it writes at most once, after the last of them, exactly if it succeeds. The model's choices (DESIGN CHOICE): the read
comes before the key is parsed, so it happens where the key is bad too (log entry 17); a read that fails is still the
one read, and a write that fails leaves no event (log entry 27). -/
def Obligations.BatchReadsOnceThenWritesAtMostOnce : Prop :=
  ∀ (decodeByte : UInt8 → Option Char) (world : BatchWorld) (s : State),
    ∃ (r : BatchResult) (issued : List CmdWord), runBatch decodeByte world s = .next r ∧
      (∀ w ∈ issued, ∃ c k, decode w = .dec c k) ∧
      ((∃ output, r.outcome = .done output ∧ r.sink = output ∧
          r.events = .readInput :: issued.map .issue ++ [.writeSink output]) ∨
        (∃ e, r.outcome = .failed e ∧ r.events = .readInput :: issued.map .issue))

/-- 60_exceptions.md R324 step 2: the tokens are the words of the text between white space, in their order. A text of no
word has none; white space in front changes nothing; a word and what follows it from the next white space on gives that
word first. These determine the tokens of every text; so none is empty, none holds white space, and together they are
the text without its white space. The set of white space characters is the model's choice (DESIGN CHOICE, log entry
15). -/
def Obligations.TokensAreTheWordsOfTheText : Prop :=
  (∀ c : Char, isSpace c = true ↔ c ∈ spaceTable) ∧
  tokensOf [] = [] ∧
  (∀ (c : Char) (text : List Char), c ∈ spaceTable → tokensOf (c :: text) = tokensOf text) ∧
  (∀ word : List Char, word ≠ [] → (∀ c ∈ word, c ∉ spaceTable) →
    tokensOf word = [word] ∧
    ∀ (c : Char) (text : List Char), c ∈ spaceTable → tokensOf (word ++ c :: text) = word :: tokensOf text) ∧
  (∀ text : List Char,
    (∀ token ∈ tokensOf text, token ≠ [] ∧ ∀ c ∈ token, c ∉ spaceTable) ∧
    (tokensOf text).flatten = text.filter (fun c => decide (c ∉ spaceTable)))

/-- 30_encoding.md R68: how a line's text is read. A comment from `;` on changes nothing; a blank line gives no word; a
mnemonic in either case and its immediates, hexadecimal or decimal, separated by commas, give the term of the grammar,
which `assemble` then takes or refuses (AssemblerPlacesOperands). No immediate at all, one where two belong, two where
one belongs, and a word that is no mnemonic are refused. Where white space may or must stand, which characters it is, and
that the hexadecimal digits and the directive `.cmd` are read in either case are the model's choice (DESIGN CHOICE, log
entries 14 and 15): R68 is silent. -/
def Obligations.AssemblerReadsLines : Prop :=
  let one : List (List Char × (Nat → Source)) :=
    [(['S', 'U', 'B'], .sub), (['S', 'U', 'B', 'I'], .subi), (['M', 'I', 'X'], .mix), (['M', 'I', 'X', 'I'], .mixi),
      (['S', 'H', 'R'], .shr), (['K', 'E', 'Y', 'E', 'X', 'P'], .keyexp), (['.', 'C', 'M', 'D'], .raw)]
  let two : List (List Char × (Nat → Nat → Source)) :=
    [(['A', 'R', 'K'], .ark), (['D', 'E', 'C'], .dec), (['G', 'F', 'M', 'U', 'L'], .gfmul)]
  (∀ line comment : List Char, assembleLine (line ++ ';' :: comment) = assembleLine line) ∧
  (∀ gap : List Char, AllSpace gap → assembleLine gap = .ok none) ∧
  (∀ gap line : List Char, AllSpace gap →
    assembleLine (gap ++ line) = assembleLine line ∧ assembleLine (line ++ gap) = assembleLine line) ∧
  (∀ (word gap text : List Char) (v : Nat), AllSpace gap → gap ≠ [] → WritesImmediate text v →
    (∀ p ∈ one, Spells word p.1 → assembleLine (word ++ gap ++ text) = (assemble (p.2 v)).map some) ∧
    (∀ p ∈ two, Spells word p.1 → assembleLine (word ++ gap ++ text) = .error .badSyntax)) ∧
  (∀ (word gap text gap1 gap2 text' : List Char) (v v' : Nat), AllSpace gap → gap ≠ [] → AllSpace gap1 →
    AllSpace gap2 → WritesImmediate text v → WritesImmediate text' v' →
    (∀ p ∈ two, Spells word p.1 →
      assembleLine (word ++ gap ++ text ++ gap1 ++ [','] ++ gap2 ++ text') = (assemble (p.2 v v')).map some) ∧
    (∀ p ∈ one, Spells word p.1 →
      assembleLine (word ++ gap ++ text ++ gap1 ++ [','] ++ gap2 ++ text') = .error .badSyntax)) ∧
  (∀ word : List Char,
    (∀ p ∈ one, Spells word p.1 → assembleLine word = .error .badSyntax) ∧
    (∀ p ∈ two, Spells word p.1 → assembleLine word = .error .badSyntax)) ∧
  (∀ word : List Char, word ≠ [] → (∀ c ∈ word, c ∉ spaceTable ∧ c ≠ ';') →
    (∀ p ∈ one, ¬ Spells word p.1) → (∀ p ∈ two, ¬ Spells word p.1) →
    ∀ (c : Char) (text : List Char), c ∈ spaceTable → assembleLine (word ++ c :: text) = .error .badSyntax)
end

