-- ==== Sys2Proof/Laws/State.lean ====
section
/-! SUPPORT. What each shared operation on the state does to each field, and what an answer does as a whole. -/

namespace Sys2Proof.Machine

@[simp] theorem present_commands (w : CmdWord) (s : State) : (s.present w).commands = w :: s.commands := rfl
@[simp] theorem present_rspErr (w : CmdWord) (s : State) : (s.present w).rspErr = s.rspErr := rfl
@[simp] theorem present_rspR0 (w : CmdWord) (s : State) : (s.present w).rspR0 = s.rspR0 := rfl
@[simp] theorem present_rspR1 (w : CmdWord) (s : State) : (s.present w).rspR1 = s.rspR1 := rfl
@[simp] theorem present_responded (w : CmdWord) (s : State) : (s.present w).responded = s.responded := rfl
@[simp] theorem present_outcomes (w : CmdWord) (s : State) : (s.present w).outcomes = s.outcomes := rfl
@[simp] theorem present_faultMark (w : CmdWord) (s : State) : (s.present w).faultMark = s.faultMark := rfl
@[simp] theorem present_freeCount (w : CmdWord) (s : State) : (s.present w).freeCount = s.freeCount := rfl

@[simp] theorem replaceCommand_commands (w : CmdWord) (s : State) : (s.replaceCommand w).commands = w :: s.commands.drop 1 := rfl
@[simp] theorem replaceCommand_rspErr (w : CmdWord) (s : State) : (s.replaceCommand w).rspErr = s.rspErr := rfl
@[simp] theorem replaceCommand_rspR0 (w : CmdWord) (s : State) : (s.replaceCommand w).rspR0 = s.rspR0 := rfl
@[simp] theorem replaceCommand_rspR1 (w : CmdWord) (s : State) : (s.replaceCommand w).rspR1 = s.rspR1 := rfl
@[simp] theorem replaceCommand_responded (w : CmdWord) (s : State) : (s.replaceCommand w).responded = s.responded := rfl
@[simp] theorem replaceCommand_outcomes (w : CmdWord) (s : State) : (s.replaceCommand w).outcomes = s.outcomes := rfl
@[simp] theorem replaceCommand_faultMark (w : CmdWord) (s : State) : (s.replaceCommand w).faultMark = s.faultMark := rfl
@[simp] theorem replaceCommand_freeCount (w : CmdWord) (s : State) : (s.replaceCommand w).freeCount = s.freeCount := rfl

@[simp] theorem respondOk_commands (r0 r1 : Block) (s : State) : (respondOk r0 r1 s).commands = s.commands := rfl
@[simp] theorem respondOk_rspErr (r0 r1 : Block) (s : State) : (respondOk r0 r1 s).rspErr = 0 := rfl
@[simp] theorem respondOk_rspR0 (r0 r1 : Block) (s : State) : (respondOk r0 r1 s).rspR0 = r0 := rfl
@[simp] theorem respondOk_rspR1 (r0 r1 : Block) (s : State) : (respondOk r0 r1 s).rspR1 = r1 := rfl
@[simp] theorem respondOk_responded (r0 r1 : Block) (s : State) : (respondOk r0 r1 s).responded = true := rfl
@[simp] theorem respondOk_outcomes (r0 r1 : Block) (s : State) : (respondOk r0 r1 s).outcomes = s.outcomes ++ [.ok r0 r1] := rfl
@[simp] theorem respondOk_faultMark (r0 r1 : Block) (s : State) : (respondOk r0 r1 s).faultMark = s.faultMark := rfl
@[simp] theorem respondOk_freeCount (r0 r1 : Block) (s : State) : (respondOk r0 r1 s).freeCount = s.freeCount := rfl

@[simp] theorem respondError_commands (f : Fault) (s : State) : (respondError f s).commands = s.commands := rfl
@[simp] theorem respondError_rspErr (f : Fault) (s : State) : (respondError f s).rspErr = 1 := rfl
@[simp] theorem respondError_rspR0 (f : Fault) (s : State) : (respondError f s).rspR0 = Config.freeR0 s.freeCount := rfl
@[simp] theorem respondError_rspR1 (f : Fault) (s : State) : (respondError f s).rspR1 = Config.freeR1 s.freeCount := rfl
@[simp] theorem respondError_responded (f : Fault) (s : State) : (respondError f s).responded = true := rfl
@[simp] theorem respondError_outcomes (f : Fault) (s : State) : (respondError f s).outcomes = s.outcomes ++ [.fault f] := rfl
@[simp] theorem respondError_faultMark (f : Fault) (s : State) : (respondError f s).faultMark = true := rfl
@[simp] theorem respondError_freeCount (f : Fault) (s : State) : (respondError f s).freeCount = s.freeCount + 1 := rfl

@[simp] theorem assertReset_commands (s : State) : s.assertReset.commands = s.commands := rfl
@[simp] theorem assertReset_rspErr (s : State) : s.assertReset.rspErr = Config.freeErr s.freeCount := rfl
@[simp] theorem assertReset_rspR0 (s : State) : s.assertReset.rspR0 = Config.freeR0 s.freeCount := rfl
@[simp] theorem assertReset_rspR1 (s : State) : s.assertReset.rspR1 = Config.freeR1 s.freeCount := rfl
@[simp] theorem assertReset_responded (s : State) : s.assertReset.responded = false := rfl
@[simp] theorem assertReset_outcomes (s : State) : s.assertReset.outcomes = s.outcomes := rfl
@[simp] theorem assertReset_faultMark (s : State) : s.assertReset.faultMark = s.faultMark := rfl
@[simp] theorem assertReset_freeCount (s : State) : s.assertReset.freeCount = s.freeCount + 1 := rfl

/-- The core accepts nothing exactly when no command is presented. -/
theorem acceptCommand_idle {s : State} (h : s.commands = []) : acceptCommand s = none := by
  simp [acceptCommand, h]

/-- The core accepts the presented command and leaves the ones behind it, and all else, as they were. -/
theorem acceptCommand_presented {s : State} {w : CmdWord} {rest : List CmdWord} (h : s.commands = w :: rest) :
    acceptCommand s = some (w, { s with commands := rest }) := by
  simp [acceptCommand, h]

/-- All that an answer does: it shows and records the outcome, and it changes neither the commands to come nor, on
success, the fault mark and the free values. -/
theorem respond_cases (o : CmdOutcome) (s : State) :
    (respond o s).commands = s.commands ∧ (respond o s).rspErr = o.err ∧ (respond o s).responded = true ∧
      (respond o s).outcomes = s.outcomes ++ [o] ∧ (respond o s).faultMark = (s.faultMark || o.isFault) ∧
      (o.isFault = false → (respond o s).freeCount = s.freeCount) := by
  cases o <;> simp [respond, CmdOutcome.err, CmdOutcome.isFault]

end Sys2Proof.Machine
end

