-- ==== Sys2Proof/Laws/Exec.lean ====
section
/-! SUPPORT. What `exec` does, said once: it answers every command with the outcome that the command and the tables
give (10_state.md R27). -/

namespace Sys2Proof.Machine

/-- Every command is answered, with the outcome of `outcomeOf` at the hardware's configuration. -/
theorem exec_eq_respond (i : Instr) (s : State) :
    exec i s = .next (respond (outcomeOf Config.hardware i) s) := by
  cases i <;> rfl

/-- The host's hand: a table row's word is the one the core accepts next. -/
theorem acceptCommand_withFetchWord (s : State) (nbits w : Nat) :
    acceptCommand (s.withFetchWord nbits w) =
      some (BitVec.ofNat 36 (w % 2 ^ nbits), { s with commands := s.commands.drop 1 }) := rfl

end Sys2Proof.Machine
end

