-- ==== Sys2Proof/Laws/Operands.lean ====
section
/-! SUPPORT. Nibbles and blocks, the fields of a command word, and the S-box tables. -/

namespace Sys2Proof

/-- The opcode of an assembled word. -/
@[simp] theorem opField_cmdWord (op : BitVec 4) (a b : Block) : opField (cmdWord op a b) = op := by
  apply BitVec.eq_of_getLsbD_eq
  intro i hi
  simp only [opField, cmdWord, BitVec.getLsbD_append, BitVec.getLsbD_extractLsb']
  interval_cases i <;> simp

/-- Operand `a` of an assembled word. -/
@[simp] theorem aField_cmdWord (op : BitVec 4) (a b : Block) : aField (cmdWord op a b) = a := by
  apply BitVec.eq_of_getLsbD_eq
  intro i hi
  simp only [aField, cmdWord, BitVec.getLsbD_append, BitVec.getLsbD_extractLsb']
  interval_cases i <;> simp

/-- Operand `b` of an assembled word. -/
@[simp] theorem bField_cmdWord (op : BitVec 4) (a b : Block) : bField (cmdWord op a b) = b := by
  apply BitVec.eq_of_getLsbD_eq
  intro i hi
  simp only [bField, cmdWord, BitVec.getLsbD_append, BitVec.getLsbD_extractLsb']
  interval_cases i <;> simp

/-- A command word is its three fields (30_encoding.md R60). -/
@[simp] theorem cmdWord_fields (w : CmdWord) : cmdWord (opField w) (aField w) (bField w) = w := by
  apply BitVec.eq_of_getLsbD_eq
  intro i hi
  simp only [opField, aField, bField, cmdWord, BitVec.getLsbD_append, BitVec.getLsbD_extractLsb']
  interval_cases i <;> simp

end Sys2Proof

namespace Sys2Proof.Machine

/-- Assembling four nibbles puts them side by side. -/
theorem asm_eq_append (m0 m1 m2 m3 : Nibble) : asm m0 m1 m2 m3 = m0 ++ m1 ++ m2 ++ m3 := by
  apply BitVec.eq_of_getLsbD_eq
  intro i hi
  simp only [asm, BitVec.getLsbD_or, BitVec.getLsbD_shiftLeft, BitVec.getLsbD_setWidth, BitVec.getLsbD_append]
  interval_cases i <;> simp

/-- Nibble 0 of an assembled block (00_scope.md R8). -/
@[simp] theorem nib_asm_zero (m0 m1 m2 m3 : Nibble) : nib (asm m0 m1 m2 m3) 0 = m0 := by
  rw [asm_eq_append]
  apply BitVec.eq_of_getLsbD_eq
  intro i hi
  simp only [nib, BitVec.getLsbD_extractLsb', BitVec.getLsbD_append]
  interval_cases i <;> simp

/-- Nibble 1 of an assembled block (00_scope.md R8). -/
@[simp] theorem nib_asm_one (m0 m1 m2 m3 : Nibble) : nib (asm m0 m1 m2 m3) 1 = m1 := by
  rw [asm_eq_append]
  apply BitVec.eq_of_getLsbD_eq
  intro i hi
  simp only [nib, BitVec.getLsbD_extractLsb', BitVec.getLsbD_append]
  interval_cases i <;> simp

/-- Nibble 2 of an assembled block (00_scope.md R8). -/
@[simp] theorem nib_asm_two (m0 m1 m2 m3 : Nibble) : nib (asm m0 m1 m2 m3) 2 = m2 := by
  rw [asm_eq_append]
  apply BitVec.eq_of_getLsbD_eq
  intro i hi
  simp only [nib, BitVec.getLsbD_extractLsb', BitVec.getLsbD_append]
  interval_cases i <;> simp

/-- Nibble 3 of an assembled block (00_scope.md R8). -/
@[simp] theorem nib_asm_three (m0 m1 m2 m3 : Nibble) : nib (asm m0 m1 m2 m3) 3 = m3 := by
  rw [asm_eq_append]
  apply BitVec.eq_of_getLsbD_eq
  intro i hi
  simp only [nib, BitVec.getLsbD_extractLsb', BitVec.getLsbD_append]
  interval_cases i <;> simp

/-- A block is its four nibbles (00_scope.md R8). -/
@[simp] theorem asm_nib (b : Block) : asm (nib b 0) (nib b 1) (nib b 2) (nib b 3) = b := by
  rw [asm_eq_append]
  apply BitVec.eq_of_getLsbD_eq
  intro i hi
  simp only [nib, BitVec.getLsbD_append, BitVec.getLsbD_extractLsb']
  interval_cases i <;> simp

/-- Two blocks with the same nibbles are equal. -/
theorem block_ext_nib {b c : Block} (h : ∀ i : Fin 4, nib b i = nib c i) : b = c := by
  rw [← asm_nib b, ← asm_nib c, h 0, h 1, h 2, h 3]

/-- `SBOX_INV[SBOX_FWD[n]] = n` (10_state.md R22). -/
@[simp] theorem sboxInvNib_sboxNib (cfg : Config) (n : Nibble) : sboxInvNib cfg (sboxNib cfg n) = n := by
  simp [sboxInvNib, sboxNib]

/-- `SBOX_FWD[SBOX_INV[n]] = n` (10_state.md R22). -/
@[simp] theorem sboxNib_sboxInvNib (cfg : Config) (n : Nibble) : sboxNib cfg (sboxInvNib cfg n) = n := by
  simp [sboxInvNib, sboxNib]

end Sys2Proof.Machine
end

