-- ==== Sys2Proof/Laws/PerInstr.lean ====
section
/-! SUPPORT. A statement about every command, one lemma per constructor of Instr. -/

namespace Sys2Proof.Laws.OpcodeField

/-- The word of a command matches its row of spec/opcode_table.json: under the row's mask it is the row's match
(30_encoding.md R63). -/
def Statement (i : Instr) : Prop :=
  encode i &&& 0xF00000000 = i.opcode.setWidth 36 <<< 32

/-- The row's mask keeps the opcode field alone. -/
theorem cmdWord_masked (op : BitVec 4) (a b : Block) :
    cmdWord op a b &&& 0xF00000000 = op.setWidth 36 <<< 32 := by
  apply BitVec.eq_of_getLsbD_eq
  intro i hi
  simp only [cmdWord, BitVec.getLsbD_and, BitVec.getLsbD_append, BitVec.getLsbD_shiftLeft, BitVec.getLsbD_setWidth]
  interval_cases i <;> simp

theorem sub (a b : Block) : Statement (.sub a b) := cmdWord_masked _ a b

theorem subi (a b : Block) : Statement (.subi a b) := cmdWord_masked _ a b

theorem mix (a b : Block) : Statement (.mix a b) := cmdWord_masked _ a b

theorem mixi (a b : Block) : Statement (.mixi a b) := cmdWord_masked _ a b

theorem shr (a b : Block) : Statement (.shr a b) := cmdWord_masked _ a b

theorem ark (a b : Block) : Statement (.ark a b) := cmdWord_masked _ a b

theorem keyexp (a b : Block) : Statement (.keyexp a b) := cmdWord_masked _ a b

theorem dec (a b : Block) : Statement (.dec a b) := cmdWord_masked _ a b

theorem gfmul (a b : Block) : Statement (.gfmul a b) := cmdWord_masked _ a b

theorem reserved9 (a b : Block) : Statement (.reserved9 a b) := cmdWord_masked _ a b

theorem reservedA (a b : Block) : Statement (.reservedA a b) := cmdWord_masked _ a b

theorem reservedB (a b : Block) : Statement (.reservedB a b) := cmdWord_masked _ a b

theorem reservedC (a b : Block) : Statement (.reservedC a b) := cmdWord_masked _ a b

theorem reservedD (a b : Block) : Statement (.reservedD a b) := cmdWord_masked _ a b

theorem reservedE (a b : Block) : Statement (.reservedE a b) := cmdWord_masked _ a b

theorem reservedF (a b : Block) : Statement (.reservedF a b) := cmdWord_masked _ a b

end Sys2Proof.Laws.OpcodeField
end

