-- ==== Sys2Proof/Tests/Slice0.lean ====
section
/-! SUPPORT. Tests. Expected values are the spec's own: 95_test_vectors.md L2 and L3 unless a comment names another
place. `candidate` and `identity` are the instances of 93_implementation_defined.md, not the hardware's table. -/

namespace Sys2Proof.Tests.Slice0

open Sys2Proof.Machine

/-- A small idle state on which every test runs. -/
def idle : State where
  commands := []
  rspErr := 0
  rspR0 := 0x5555
  rspR1 := 0x5555
  responded := false
  outcomes := []
  faultMark := false
  freeCount := 0

/-- What the response ports show after a step that goes on. -/
def ports : Host.Outcome State Fault Refusal → Option (BitVec 1 × Block × Block)
  | .next t => some (t.rspErr, t.rspR0, t.rspR1)
  | .fault _ => none
  | .refused _ => none

/-- The port `rsp_err`, the outcomes and the fault mark after a step that goes on. -/
def verdict : Host.Outcome State Fault Refusal → Option (BitVec 1 × List CmdOutcome × Bool)
  | .next t => some (t.rspErr, t.outcomes, t.faultMark)
  | .fault _ => none
  | .refused _ => none

/-! ### Decoding: one written word per constructor, its opcode in the first hex digit (30_encoding.md R63) -/

theorem test_decode_sub : decode 0x001230000 = .sub 0x0123 0x0000 ∧ encode (.sub 0x0123 0x0000) = 0x001230000 := by decide

theorem test_decode_subi : decode 0x189ABFFFF = .subi 0x89AB 0xFFFF ∧ encode (.subi 0x89AB 0xFFFF) = 0x189ABFFFF := by decide

theorem test_decode_mix : decode 0x212340000 = .mix 0x1234 0x0000 ∧ encode (.mix 0x1234 0x0000) = 0x212340000 := by decide

theorem test_decode_mixi : decode 0x3BE200000 = .mixi 0xBE20 0x0000 ∧ encode (.mixi 0xBE20 0x0000) = 0x3BE200000 := by decide

theorem test_decode_shr : decode 0x4ABCD0001 = .shr 0xABCD 0x0001 ∧ encode (.shr 0xABCD 0x0001) = 0x4ABCD0001 := by decide

theorem test_decode_ark : decode 0x53214ABCD = .ark 0x3214 0xABCD ∧ encode (.ark 0x3214 0xABCD) = 0x53214ABCD := by decide

theorem test_decode_keyexp : decode 0x60000A73B = .keyexp 0x0000 0xA73B ∧ encode (.keyexp 0x0000 0xA73B) = 0x60000A73B := by decide

theorem test_decode_dec : decode 0x71C4D1234 = .dec 0x1C4D 0x1234 ∧ encode (.dec 0x1C4D 0x1234) = 0x71C4D1234 := by decide

theorem test_decode_gfmul : decode 0x8FFF40014 = .gfmul 0xFFF4 0x0014 ∧ encode (.gfmul 0xFFF4 0x0014) = 0x8FFF40014 := by decide

theorem test_decode_reserved9 : decode 0x912345678 = .reserved9 0x1234 0x5678 ∧ encode (.reserved9 0x1234 0x5678) = 0x912345678 := by decide

theorem test_decode_reservedA : decode 0xA12345678 = .reservedA 0x1234 0x5678 ∧ encode (.reservedA 0x1234 0x5678) = 0xA12345678 := by decide

theorem test_decode_reservedB : decode 0xB12345678 = .reservedB 0x1234 0x5678 ∧ encode (.reservedB 0x1234 0x5678) = 0xB12345678 := by decide

theorem test_decode_reservedC : decode 0xC12345678 = .reservedC 0x1234 0x5678 ∧ encode (.reservedC 0x1234 0x5678) = 0xC12345678 := by decide

theorem test_decode_reservedD : decode 0xD12345678 = .reservedD 0x1234 0x5678 ∧ encode (.reservedD 0x1234 0x5678) = 0xD12345678 := by decide

theorem test_decode_reservedE : decode 0xE12345678 = .reservedE 0x1234 0x5678 ∧ encode (.reservedE 0x1234 0x5678) = 0xE12345678 := by decide

theorem test_decode_reservedF : decode 0xF12345678 = .reservedF 0x1234 0x5678 ∧ encode (.reservedF 0x1234 0x5678) = 0xF12345678 := by decide

theorem test_decode_table_word_shr : decodeTableWord 40 0x412340000 = some (.shr 0x1234 0x0000) := by decide

theorem test_decode_table_word_drops_high_bits :
    decodeTableWord 36 0xF412340000 = some (.shr 0x1234 0x0000) := by decide

theorem test_decode_refuses_37_bits : decodeNat 0x1000000000 = .error .notACommandWord := by decide

/-! ### Well-formedness: an ill-formed term for each check, refused -/

theorem test_sub_immediate_17_bits_refused : (Source.sub 0x10000).wellFormed = false := by decide

theorem test_keyexp_immediate_17_bits_refused : (Source.keyexp 0x10000).wellFormed = false := by decide

theorem test_ark_second_immediate_refused : (Source.ark 0xFFFF 0x10000).wellFormed = false := by decide

theorem test_dec_first_immediate_refused : (Source.dec 0x10000 0).wellFormed = false := by decide

theorem test_gfmul_immediate_5_bits_refused : (Source.gfmul 0xF 0x10).wellFormed = false := by decide

theorem test_raw_37_bits_refused : (Source.raw 0x1000000000).wellFormed = false := by decide

theorem test_sub_ignored_field_not_canonical : (Instr.sub 0x1234 0x0001).canonical = false := by decide

theorem test_keyexp_ignored_field_not_canonical : (Instr.keyexp 0x0001 0x1234).canonical = false := by decide

theorem test_gfmul_ignored_bits_not_canonical : (Instr.gfmul 0x0014 0x0004).canonical = false := by decide

/-! ### Each command, on one small state -/

theorem test_sub_candidate : outcomeOf Config.candidate (.sub 0x4567 0x0000) = .ok 0xD185 0x0000 := by decide

theorem test_sub_answers : (ports (exec (.sub 0x1234 0xFFFF) idle)).map (fun p => (p.1, p.2.2)) = some (0, 0x0000) := by
  decide

theorem test_subi_candidate : outcomeOf Config.candidate (.subi 0x4567 0xFFFF) = .ok 0x178F 0x0000 := by decide

theorem test_subi_answers : (ports (exec (.subi 0x1234 0x0000) idle)).map (fun p => (p.1, p.2.2)) = some (0, 0x0000) := by
  decide

theorem test_mix_1234 : ports (exec (.mix 0x1234 0x0000) idle) = some (0, 0x9608, 0x0000) := by decide

theorem test_mix_0100 : ports (exec (.mix 0x0100 0xFFFF) idle) = some (0, 0x4100, 0x0000) := by decide

theorem test_mixi_be20 : ports (exec (.mixi 0xBE20 0x0000) idle) = some (0, 0x3214, 0x0000) := by decide

theorem test_mixi_00f0 : ports (exec (.mixi 0x00F0 0x1234) idle) = some (0, 0x00ED, 0x0000) := by decide

theorem test_shr_1234 : ports (exec (.shr 0x1234 0x0000) idle) = some (0, 0x3214, 0x0000) := by decide

theorem test_shr_0f00 : ports (exec (.shr 0x0F00 0xABCD) idle) = some (0, 0x0F00, 0x0000) := by decide

theorem test_ark_complement : ports (exec (.ark 0x1234 0xFFFF) idle) = some (0, 0xEDCB, 0x0000) := by decide

theorem test_ark_3214 : ports (exec (.ark 0x3214 0xABCD) idle) = some (0, 0x99D9, 0x0000) := by decide

theorem test_keyexp_candidate : outcomeOf Config.candidate (.keyexp 0xFFFF 0xA73B) = .ok 0x7038 0xBB80 := by decide

theorem test_keyexp_identity : outcomeOf Config.identity (.keyexp 0x0000 0x1234) = .ok 0xB9AE 0xF6C2 := by decide

theorem test_dec_candidate : outcomeOf Config.candidate (.dec 0x1234 0xA73B) = .ok 0xFA94 0x0000 := by decide

theorem test_dec_identity : outcomeOf Config.identity (.dec 0x3F02 0x1234) = .ok 0x4943 0x0000 := by decide

theorem test_gfmul_upper_bits_ignored : ports (exec (.gfmul 0xFFF4 0x0014) idle) = some (0, 0x0003, 0x0000) := by decide

/-- The whole table V-GF of 95_test_vectors.md. -/
theorem test_gfmul_table :
    ((List.finRange 16).map fun a => (List.finRange 16).map fun b =>
      (gfMul (BitVec.ofFin a) (BitVec.ofFin b)).toNat) =
  [[0, 0, 0, 0, 0, 0, 0, 0, 0, 0, 0, 0, 0, 0, 0, 0],
   [0, 1, 2, 3, 4, 5, 6, 7, 8, 9, 10, 11, 12, 13, 14, 15],
   [0, 2, 4, 6, 8, 10, 12, 14, 3, 1, 7, 5, 11, 9, 15, 13],
   [0, 3, 6, 5, 12, 15, 10, 9, 11, 8, 13, 14, 7, 4, 1, 2],
   [0, 4, 8, 12, 3, 7, 11, 15, 6, 2, 14, 10, 5, 1, 13, 9],
   [0, 5, 10, 15, 7, 2, 13, 8, 14, 11, 4, 1, 9, 12, 3, 6],
   [0, 6, 12, 10, 11, 13, 7, 1, 5, 3, 9, 15, 14, 8, 2, 4],
   [0, 7, 14, 9, 15, 8, 1, 6, 13, 10, 3, 4, 2, 5, 12, 11],
   [0, 8, 3, 11, 6, 14, 5, 13, 12, 4, 15, 7, 10, 2, 9, 1],
   [0, 9, 1, 8, 2, 11, 3, 10, 4, 13, 5, 12, 6, 15, 7, 14],
   [0, 10, 7, 13, 14, 4, 9, 3, 15, 5, 8, 2, 1, 11, 6, 12],
   [0, 11, 5, 14, 10, 1, 15, 4, 7, 12, 2, 9, 13, 6, 8, 3],
   [0, 12, 11, 7, 5, 9, 14, 2, 10, 6, 1, 13, 15, 3, 4, 8],
   [0, 13, 9, 4, 1, 12, 8, 5, 2, 15, 11, 6, 3, 14, 10, 7],
   [0, 14, 15, 1, 13, 3, 2, 12, 9, 7, 6, 8, 4, 10, 11, 5],
   [0, 15, 13, 2, 9, 6, 4, 11, 1, 14, 12, 3, 8, 7, 5, 10]] := by
  decide +kernel

theorem test_reserved9 : verdict (exec (.reserved9 0x1234 0x5678) idle) =
    some (1, [.fault (.reservedOpcode 0x9 0x1234 0x5678)], true) := by decide

theorem test_reservedA : verdict (exec (.reservedA 0x1234 0x5678) idle) =
    some (1, [.fault (.reservedOpcode 0xA 0x1234 0x5678)], true) := by decide

theorem test_reservedB : verdict (exec (.reservedB 0x1234 0x5678) idle) =
    some (1, [.fault (.reservedOpcode 0xB 0x1234 0x5678)], true) := by decide

theorem test_reservedC : verdict (exec (.reservedC 0x1234 0x5678) idle) =
    some (1, [.fault (.reservedOpcode 0xC 0x1234 0x5678)], true) := by decide

theorem test_reservedD : verdict (exec (.reservedD 0x1234 0x5678) idle) =
    some (1, [.fault (.reservedOpcode 0xD 0x1234 0x5678)], true) := by decide

theorem test_reservedE : verdict (exec (.reservedE 0x1234 0x5678) idle) =
    some (1, [.fault (.reservedOpcode 0xE 0x1234 0x5678)], true) := by decide

theorem test_reservedF : verdict (exec (.reservedF 0x1234 0x5678) idle) =
    some (1, [.fault (.reservedOpcode 0xF 0x1234 0x5678)], true) := by decide

/-! ### Steps -/

theorem test_step_answers_the_presented_command :
    ports (step (idle.present 0x412340000)) = some (0, 0x3214, 0x0000) := by decide

theorem test_step_idle : step idle = .next idle := rfl

/-- The word of a table row is the first command after reset. -/
theorem test_fetch_word_after_reset :
    ports (step (State.reset.withFetchWord 40 0x53214ABCD)) = some (0, 0x99D9, 0x0000) := by decide

/-- 95_test_vectors.md P3, commands 3 and 4: the core goes on after a reserved word. -/
theorem test_command_after_fault : ports (step (({ idle with faultMark := true } : State).present 0x412340000)) =
    some (0, 0x3214, 0x0000) := by decide

/-! ### Assembly (30_encoding.md R68, R69) -/

theorem test_assemble_gfmul : assembleLine [' ', 'g', 'f', 'm', 'u', 'l', ' ', '1', '5', ',', '0', 'x', 'f', ';', '!'] =
    .ok (some 0x8000F000F) := by decide

theorem test_assemble_blank_line : assembleLine [' ', ';', 'x'] = .ok none := by decide

theorem test_assemble_out_of_range : assembleLine ['S', 'U', 'B', ' ', '6', '5', '5', '3', '6'] =
    .error .immediateOutOfRange := by decide

theorem test_assemble_bad_syntax : assembleLine ['A', 'R', 'K', ' ', '1'] = .error .badSyntax := by decide

/-- R69: a word whose ignored field is nonzero. -/
theorem test_disassemble_ignored_field : disassemble 0x012340001 =
    ['.', 'c', 'm', 'd', ' ', '0', 'x', '0', '1', '2', '3', '4', '0', '0', '0', '1', ' ', ';', ' ', 'S', 'U', 'B', ' ',
      '0', 'x', '1', '2', '3', '4'] ++ ignoredFieldNonzero := by decide

/-! ### The batch host (95_test_vectors.md P4) -/

theorem test_tokens_of_line : tokensOf ['1', 'C', '4', 'D', ' ', ' ', '3', 'F', '0', '2', '\n'] =
    [['1', 'C', '4', 'D'], ['3', 'F', '0', '2']] := by decide

theorem test_bytes_high_first : bytesOf 0xE15D = (0xE1, 0x5D) := by decide

theorem test_prefixed_token_is_malformed : parseToken ['0', 'x', '1'] = .error .malformedHex := by decide

/-! ### The hypotheses of the statements are met -/

/-- DisassemblyAssemblesBack, second clause. -/
theorem witness_assembled_word_is_canonical : Mnemonic.sub ≠ .cmd ∧
    sourceOf .sub [0xFFFF] = some (.sub 0xFFFF) ∧ assemble (.sub 0xFFFF) = .ok 0x0FFFF0000 := by decide

/-- DisassemblyAssemblesBack, third clause. -/
theorem witness_ignored_field_nonzero :
    mnemonicForm (decode 0x012340001) = some ['S', 'U', 'B', ' ', '0', 'x', '1', '2', '3', '4'] ∧
      (decode 0x012340001).canonical = false := by decide

/-- AssemblerPlacesOperands, the least immediates out of range. -/
theorem witness_out_of_range : 2 ^ 16 ≤ 0x10000 ∧ 2 ^ 4 ≤ 0x10 ∧ 2 ^ 36 ≤ 0x1000000000 := by decide

/-- MnemonicsAreCaseInsensitive and AssemblerReadsLines: a word of both cases spells a mnemonic, and one spells none. -/
theorem witness_small_letters : Spells ['s', 'U', 'b', 'i'] ['S', 'U', 'B', 'I'] ∧
    readMnemonic ['s', 'U', 'b', 'i'] = some .subi ∧ ¬ Spells ['S', 'U', 'B', '1'] ['S', 'U', 'B', 'I'] ∧
    readMnemonic ['S', 'U', 'B', '1'] = none := by unfold Spells; decide

/-- OnlyReservedOpcodesFail and UnproducedResultsAreZero: both sides of the boundary, and KEYEXP and GFMUL. -/
theorem witness_opcode_boundary :
    (BitVec.extractLsb' 32 4 (0x812345678 : CmdWord)).toNat ≤ 8 ∧ ReservedOp (BitVec.extractLsb' 32 4 (0x912345678 : CmdWord)) ∧
      (BitVec.extractLsb' 32 4 (0x612345678 : CmdWord)).toNat ≤ 8 ∧
      BitVec.extractLsb' 32 4 (0x612345678 : CmdWord) = 0x6 ∧ BitVec.extractLsb' 32 4 (0x812345678 : CmdWord) = 0x8 ∧
      BitVec.extractLsb' 32 4 (0x812345678 : CmdWord) ≠ 0x6 := by decide

/-- StepKeepsInv. -/
theorem witness_step_from_inv : (idle.present 0x412340000).Inv ∧
    ∃ t, step (idle.present 0x412340000) = .next t :=
  ⟨⟨rfl, (fun _ h => nomatch h), (fun h => nomatch h)⟩, _, rfl⟩

/-- SubAnswers, equal input nibbles. -/
theorem witness_equal_nibbles : nib 0x1213 0 = nib 0x1213 2 := by decide

/-- GfMulLaws, a nonzero nibble. -/
theorem witness_nonzero_nibble : (1 : Nibble) ≠ 0 := by decide

/-- MixAnswers, a column pair of zeros. -/
theorem witness_zero_pairs : (nib 0x00FF 0 = 0 ∧ nib 0x00FF 1 = 0) ∧ nib 0xFF00 2 = 0 ∧ nib 0xFF00 3 = 0 := by decide

/-- MixColumnsActsPairByPair, blocks that share one column pair. -/
theorem witness_shared_pairs : (nib 0x1234 0 = nib 0x1256 0 ∧ nib 0x1234 1 = nib 0x1256 1) ∧
    nib 0x1234 2 = nib 0x5634 2 ∧ nib 0x1234 3 = nib 0x5634 3 := by decide

/-- TokensParseAsHexNumbers: the shortest and the longest texts, the least too long, and one malformed. -/
theorem witness_token_lengths :
    parseToken [hexDigit 7] = .ok 0x0007 ∧ parseToken ([1, 12, 4, 13].map hexDigit) = .ok 0x1C4D ∧
      parseToken ([1, 2, 3, 4, 5].map hexDigit) = .error .tokenTooLong ∧ hexValue 'g' = none := by decide

/-- TokensParseAsHexNumbers, digits with their values: small letters, in texts of 1 and of 4. -/
theorem witness_small_digits :
    (∀ d ∈ [('f', 15)], d ∈ hexDigitTable) ∧ parseToken ['f'] = .ok 0x000F ∧
      (∀ d ∈ [('a', 10), ('7', 7), ('3', 3), ('b', 11)], d ∈ hexDigitTable) ∧
      digitsValue 16 [('a', 10), ('7', 7), ('3', 3), ('b', 11)] = 0xA73B ∧
      parseToken ['a', '7', '3', 'b'] = .ok 0xA73B := by decide

/-- TokensParseAsHexNumbers: the neighbours of the digits are none; a text malformed and too long. -/
theorem witness_malformed_and_too_long :
    (∀ c ∈ ['/', ':', '@', 'G', '`', 'g'], ∀ v, (c, v) ∉ hexDigitTable) ∧
      List.Sublist ['1', '2', '3', '4', '5'] ['1', '2', 'g', '3', '4', '5'] ∧
      (∀ d ∈ ['1', '2', '3', '4', '5'], ∃ v, (d, v) ∈ hexDigitTable) ∧
      parseErrors ['1', '2', 'g', '3', '4', '5'] = [.malformedHex, .tokenTooLong] :=
  ⟨by simp [hexDigitTable], by decide, by simp [hexDigitTable], by decide⟩

/-- TokensAreTheWordsOfTheText: white space, a word, and what follows it. -/
theorem witness_words_of_a_text :
    '\t' ∈ spaceTable ∧ (∀ c ∈ ['0', 'A'], c ∉ spaceTable) ∧
      tokensOf ['\t', '0', 'A', '\r', '\n', 'B', ' '] = [['0', 'A'], ['B']] :=
  ⟨by decide, by simp [spaceTable], by decide⟩

/-- AssemblerReadsLines: gaps, words and immediates of a line, hexadecimal and decimal. -/
theorem witness_line_parts : AllSpace [' ', '\t'] ∧ Spells ['a', 'R', 'k'] ['A', 'R', 'K'] ∧
    WritesImmediate ['0', 'x', 'F', 'f'] 255 ∧ WritesImmediate ['0', '1', '2'] 12 :=
  ⟨by simp [AllSpace, spaceTable], by unfold Spells; decide,
    .inl ⟨[('F', 15), ('f', 15)], by decide, by decide, rfl, rfl⟩,
    .inr ⟨[('0', 0), ('1', 1), ('2', 2)], by decide, by decide, rfl, rfl⟩⟩

/-- AssemblerReadsLines, each shape: two immediates, one missing, one too many, none, no mnemonic. -/
theorem test_lines_read :
    assembleLine ['a', 'R', 'k', ' ', '\t', '0', 'x', 'F', 'f', ' ', ',', ' ', '0', '1', '2', ' ', ';', 'k'] =
        .ok (some 0x500FF000C) ∧
      assembleLine ['D', 'E', 'C', ' ', '1'] = .error .badSyntax ∧
      assembleLine ['S', 'H', 'R', ' ', '1', ',', '2'] = .error .badSyntax ∧
      assembleLine ['S', 'H', 'R'] = .error .badSyntax ∧
      assembleLine ['S', 'H', 'L', ' ', '1'] = .error .badSyntax := by decide

/-- A total `DECODE_BYTE`, for a witness only: each byte is the character of its number. -/
def decodeEveryByte (x : UInt8) : Option Char := some (Char.ofNat x.toNat)

/-- The world of 95_test_vectors.md P4. -/
def worldP4 : BatchWorld where
  key := ['1', '2', '3', '4']
  input := some ['1', 'C', '4', 'D', ' ', '3', 'F', '0', '2']
  sinkWritable := true
  freeIndex := 0

/-- The two characters of a plaintext block under `decodeEveryByte`. -/
def charsOf (p : Block) : Char × Char :=
  (Char.ofNat (UInt8.ofBitVec (p.extractLsb' 8 8)).toNat, Char.ofNat (UInt8.ofBitVec (p.extractLsb' 0 8)).toNat)

/-- BatchWritesTheDecryptedText: the hypotheses hold of 95_test_vectors.md P4, whatever the S-box. -/
theorem witness_batch_P4 :
    worldP4.input = some ['1', 'C', '4', 'D', ' ', '3', 'F', '0', '2'] ∧ worldP4.sinkWritable = true ∧
      parseToken worldP4.key = .ok 0x1234 ∧
      List.Forall₂ (fun token c => parseToken token = .ok c)
        (tokensOf ['1', 'C', '4', 'D', ' ', '3', 'F', '0', '2']) [0x1C4D, 0x3F02] ∧
      List.Forall₂ (fun c (ch : Char × Char) =>
        decodeEveryByte (UInt8.ofBitVec ((decrypt Config.hardware c 0x1234).extractLsb' 8 8)) = some ch.1 ∧
        decodeEveryByte (UInt8.ofBitVec ((decrypt Config.hardware c 0x1234).extractLsb' 0 8)) = some ch.2)
        [0x1C4D, 0x3F02]
        [charsOf (decrypt Config.hardware 0x1C4D 0x1234), charsOf (decrypt Config.hardware 0x3F02 0x1234)] :=
  ⟨rfl, rfl, by decide, .cons (by decide) (.cons (by decide) .nil), .cons ⟨rfl, rfl⟩ (.cons ⟨rfl, rfl⟩ .nil)⟩

/-- BatchFailsExactlyWhenAnErrorApplies: a failed invocation (60_exceptions.md R326). -/
theorem witness_batch_fails : ∃ r e, runBatch decodeEveryByte { worldP4 with input := none } idle = .next r ∧
    r.outcome = .failed e :=
  ⟨_, _, rfl, rfl⟩

end Sys2Proof.Tests.Slice0
end

section
/-! PROOF. What a step does, said once for its two cases, and the S-box tables as inverse functions (the family of
10_state.md). -/

namespace Sys2Proof.Machine

/-- With no command presented the step leaves the state as it is (60_exceptions.md R320). -/
theorem step_of_commands_nil {s : State} (h : s.commands = []) : step s = .next s := by
  simp [step, acceptCommand_idle h]

/-- With a command presented the step answers it with the outcome of its word, the commands behind it still to come
(10_state.md R27, 20_memory.md R48). -/
theorem step_of_commands_cons {s : State} {w : CmdWord} {rest : List CmdWord} (h : s.commands = w :: rest) :
    step s = .next (respond (outcomeOf Config.hardware (decode w)) { s with commands := rest }) := by
  simp [step, acceptCommand_presented h, exec_eq_respond]

@[simp] theorem observation_nil (cfg : Config) : observation cfg [] = [] := rfl

@[simp] theorem observation_cons (cfg : Config) (w : CmdWord) (words : List CmdWord) :
    observation cfg (w :: words) = outcomeOf cfg (decode w) :: observation cfg words := rfl

/-- Settles O10: the idle step answers the state itself, and a presented command is answered by `respond`, which
records its one outcome. -/
theorem everyStepAnswersOneCommand : Obligations.EveryStepAnswersOneCommand := by
  unfold Obligations.EveryStepAnswersOneCommand
  intro s
  cases hs : s.commands with
  | nil => exact ⟨s, step_of_commands_nil hs, by simp [hs]⟩
  | cons w rest =>
    obtain ⟨hcommands, -, -, houtcomes, -, -⟩ :=
      respond_cases (outcomeOf Config.hardware (decode w)) { s with commands := rest }
    exact ⟨_, step_of_commands_cons hs, by simpa using hcommands, by simpa using houtcomes⟩

/-- The forward table permutes the nibbles (10_state.md R22). -/
theorem sboxNib_bijective (cfg : Config) : Function.Bijective (sboxNib cfg) :=
  Function.bijective_iff_has_inverse.mpr ⟨sboxInvNib cfg, sboxInvNib_sboxNib cfg, sboxNib_sboxInvNib cfg⟩

/-- The inverse table undoes the forward one, entry by entry (10_state.md R22). -/
theorem sboxNib_eq_iff (cfg : Config) (n m : Nibble) : sboxNib cfg n = m ↔ sboxInvNib cfg m = n := by
  constructor
  · rintro rfl
    exact sboxInvNib_sboxNib cfg n
  · rintro rfl
    exact sboxNib_sboxInvNib cfg m

/-- Settles O19, from the two inverse laws of the tables. -/
theorem sboxTablesAreInverse : Obligations.SboxTablesAreInverse := by
  unfold Obligations.SboxTablesAreInverse
  exact fun cfg => ⟨sboxNib_bijective cfg, sboxNib_eq_iff cfg⟩

end Sys2Proof.Machine
end

section
/-! PROOF. A step as `exec` of the presented command, and a response that depends on its command alone (the family of
20_memory.md). -/

namespace Sys2Proof.Machine

/-- After an answer the response ports show its outcome (30_encoding.md R61). -/
theorem respond_shows (o : CmdOutcome) (s : State) : (respond o s).Shows o := by
  cases o with
  | ok r0 r1 => exact ⟨respondOk_rspErr r0 r1 s, respondOk_rspR0 r0 r1 s, respondOk_rspR1 r0 r1 s⟩
  | fault f => exact respondError_rspErr f s

/-- The step on a presented word records and shows the outcome of that word under the hardware's tables, a value in
which the state does not occur (20_memory.md R49). -/
theorem step_present_records_and_shows (s : State) (w : CmdWord) :
    ∃ t, step (s.present w) = .next t ∧ t.outcomes = s.outcomes ++ [outcomeOf Config.hardware (decode w)] ∧
      t.Shows (outcomeOf Config.hardware (decode w)) := by
  have hstep := step_of_commands_cons (present_commands w s)
  obtain ⟨-, -, -, houtcomes, -, -⟩ :=
    respond_cases (outcomeOf Config.hardware (decode w)) { s.present w with commands := s.commands }
  exact ⟨_, hstep, houtcomes, respond_shows _ _⟩

/-- Settles O12: in both states the outcome is the one that the word and the tables give. -/
theorem responseDependsOnTheCommandAlone : Obligations.ResponseDependsOnTheCommandAlone := by
  unfold Obligations.ResponseDependsOnTheCommandAlone
  intro s s' w
  obtain ⟨t, hstep, houtcomes, hshows⟩ := step_present_records_and_shows s w
  obtain ⟨t', hstep', houtcomes', hshows'⟩ := step_present_records_and_shows s' w
  exact ⟨t, t', _, hstep, hstep', houtcomes, houtcomes', hshows, hshows'⟩

/-- Settles O8: the core accepts the presented word, and the step is `exec` of it on what is left. -/
theorem stepRunsTheDecodedCommand : Obligations.StepRunsTheDecodedCommand := by
  unfold Obligations.StepRunsTheDecodedCommand
  intro s w rest
  have haccept : acceptCommand { s with commands := w :: rest } = some (w, { s with commands := rest }) :=
    acceptCommand_presented rfl
  simp only [step, haccept]

end Sys2Proof.Machine
end

section
/-! PROOF. Decoding and encoding: the opcode selects the command, and no bit of a word is lost (the family of
30_encoding.md: R60, R63, R66). -/

namespace Sys2Proof

/-- Decoding looks at the opcode alone to select the command (30_encoding.md R66). -/
theorem decode_of_opField {w : CmdWord} {op : BitVec 4} (h : opField w = op) :
    decode w = commandOfBits op[3] op[2] op[1] op[0] (aField w) (bField w) := by
  subst h
  rfl

/-- An assembled word decodes to the row of its opcode, with its operands. -/
@[simp] theorem decode_cmdWord (op : BitVec 4) (a b : Block) :
    decode (cmdWord op a b) = commandOfBits op[3] op[2] op[1] op[0] a b := by
  rw [decode_of_opField (opField_cmdWord op a b), aField_cmdWord, bField_cmdWord]

/-- The row that a command's own opcode selects is the command (30_encoding.md R63). -/
theorem commandOfBits_opcode (i : Instr) :
    commandOfBits i.opcode[3] i.opcode[2] i.opcode[1] i.opcode[0] i.a i.b = i := by
  cases i <;> simp [Instr.opcode, Instr.a, Instr.b, commandOfBits]

/-- A command's word decodes to the command (30_encoding.md R66). -/
@[simp] theorem decode_encode (i : Instr) : decode (encode i) = i := by
  rw [encode, decode_cmdWord, commandOfBits_opcode]

/-- The row that four bits select has those bits as its opcode, and it keeps both operands (30_encoding.md R63). -/
theorem encode_commandOfBits (b3 b2 b1 b0 : Bool) (a b : Block) :
    encode (commandOfBits b3 b2 b1 b0 a b) =
      cmdWord (BitVec.ofBool b3 ++ BitVec.ofBool b2 ++ BitVec.ofBool b1 ++ BitVec.ofBool b0) a b := by
  unfold commandOfBits
  split <;> rfl

/-- An opcode is its four bits, `op[3]` first. -/
theorem opcode_eq_append_bits (op : BitVec 4) :
    BitVec.ofBool op[3] ++ BitVec.ofBool op[2] ++ BitVec.ofBool op[1] ++ BitVec.ofBool op[0] = op := by
  revert op
  decide

/-- A word's command encodes to the word: no bit is lost in decoding (30_encoding.md R62, R66). -/
@[simp] theorem encode_decode (w : CmdWord) : encode (decode w) = w := by
  calc encode (decode w)
      = cmdWord (opField w) (aField w) (bField w) := by
        rw [decode, encode_commandOfBits, opcode_eq_append_bits]
    _ = w := cmdWord_fields w

/-- Settles O1, from the two round trips. -/
theorem decodeAndEncodeAgree : Obligations.DecodeAndEncodeAgree := by
  unfold Obligations.DecodeAndEncodeAgree
  exact ⟨decode_encode, encode_decode⟩

/-- Settles O2: each row is `commandOfBits` at the bits of its opcode. -/
theorem opcodeSelectsTheCommand : Obligations.OpcodeSelectsTheCommand := by
  unfold Obligations.OpcodeSelectsTheCommand
  intro w op a b
  and_intros <;> exact decode_of_opField

/-- The command of a word has the word's opcode, and below its operands. -/
@[simp] theorem opcode_decode (w : CmdWord) : (decode w).opcode = opField w := by
  rw [← opField_cmdWord (decode w).opcode (decode w).a (decode w).b]
  exact congrArg opField (encode_decode w)

@[simp] theorem a_decode (w : CmdWord) : (decode w).a = aField w := by
  rw [← aField_cmdWord (decode w).opcode (decode w).a (decode w).b]
  exact congrArg aField (encode_decode w)

@[simp] theorem b_decode (w : CmdWord) : (decode w).b = bField w := by
  rw [← bField_cmdWord (decode w).opcode (decode w).a (decode w).b]
  exact congrArg bField (encode_decode w)

end Sys2Proof
end

section
/-! PROOF. The fields of the response word, the results that a command does not produce, and the fields it does not
read (30_encoding.md R61, R62, R71). -/

namespace Sys2Proof.Machine

/-- Settles O4: the response word is its three fields side by side. -/
theorem responseWordFields : Obligations.ResponseWordFields := by
  unfold Obligations.ResponseWordFields
  intro s
  have hhigh (start len : Nat) (h : 16 ≤ start) :
      s.rspWord.extractLsb' start len = (s.rspErr ++ s.rspR0).extractLsb' (start - 16) len :=
    BitVec.extractLsb'_append_eq_of_le h
  exact ⟨(hhigh 32 1 (by decide)).trans BitVec.extractLsb'_append_eq_left,
    (hhigh 16 16 (by decide)).trans BitVec.extractLsb'_append_eq_right, BitVec.extractLsb'_append_eq_right⟩

/-- What a defined command answers where it has no result of its own (30_encoding.md R71): it succeeds, with `r1` zero
but for KEYEXP, and GFMUL's `r0` is its product zero-extended. -/
theorem outcomeOf_of_defined (cfg : Config) {i : Instr} (hdefined : i.opcode.toNat ≤ 8) :
    ∃ r0 r1, outcomeOf cfg i = .ok r0 r1 ∧ (i.opcode ≠ 0x6 → r1 = 0x0000) ∧
      (i.opcode = 0x8 → r0 = zext16 (gfMul (gfOperand i.a) (gfOperand i.b))) := by
  cases i with
  | keyexp a b => exact ⟨_, _, rfl, fun h => absurd rfl h, fun h => absurd h (by simp [Instr.opcode])⟩
  | gfmul a b => exact ⟨_, _, rfl, fun _ => rfl, fun _ => rfl⟩
  | sub a b | subi a b | mix a b | mixi a b | shr a b | ark a b | dec a b =>
    exact ⟨_, _, rfl, fun _ => rfl, fun h => absurd h (by simp [Instr.opcode])⟩
  | reserved9 a b | reservedA a b | reservedB a b | reservedC a b | reservedD a b | reservedE a b | reservedF a b =>
    exact absurd hdefined (by simp [Instr.opcode])

/-- The nibble operand of GFMUL in field `a` of a word is the low four bits of the field (30_encoding.md R62). -/
theorem gfOperand_aField (w : CmdWord) : gfOperand (aField w) = w.extractLsb' 16 4 := by
  apply BitVec.eq_of_getLsbD_eq
  intro i hi
  have hfield : i < 16 := by omega
  simp [gfOperand, aField, hi, hfield]

/-- The same of field `b`. -/
theorem gfOperand_bField (w : CmdWord) : gfOperand (bField w) = w.extractLsb' 0 4 :=
  BitVec.extractLsb'_extractLsb'_of_le (by decide)

/-- A zero-extended nibble has no bit above it (00_scope.md R8). -/
theorem zext16_high (n : Nibble) : (zext16 n).extractLsb' 4 12 = 0 := by
  revert n
  decide

theorem gfOperand_zext16 (n : Nibble) : gfOperand (zext16 n) = n := by
  revert n
  decide

/-- Settles O44 by `outcomeOf_of_defined`: the step answers with the outcome of the decoded word. -/
theorem unproducedResultsAreZero : Obligations.UnproducedResultsAreZero := by
  unfold Obligations.UnproducedResultsAreZero
  intro w s hdefined
  obtain ⟨t, hstep, -, hshows⟩ := step_present_records_and_shows s w
  obtain ⟨r0, r1, houtcome, hr1, hr0⟩ :=
    outcomeOf_of_defined Config.hardware (i := decode w) (by rwa [opcode_decode])
  rw [houtcome] at hshows
  obtain ⟨herr, rfl, rfl⟩ := hshows
  refine ⟨t, hstep, herr, fun hop => hr1 (by rwa [opcode_decode]), fun hop => ?_⟩
  have hproduct : t.rspR0 = zext16 (gfMul (w.extractLsb' 16 4) (w.extractLsb' 0 4)) := by
    simpa [gfOperand_aField, gfOperand_bField] using hr0 (by rwa [opcode_decode])
  exact ⟨hproduct, by rw [hproduct, zext16_high]⟩

/-- A command answers as another of the same outcome does. -/
theorem exec_congr {i j : Instr} (h : outcomeOf Config.hardware i = outcomeOf Config.hardware j) (s : State) :
    exec i s = exec j s := by
  rw [exec_eq_respond, exec_eq_respond, h]

theorem gfOperand_append (h : BitVec 12) (x : Nibble) : gfOperand (h ++ x) = x :=
  BitVec.extractLsb'_append_eq_right

/-- Settles O43: the outcomes do not read the ignored fields, and the operands of GFMUL are the nibbles. -/
theorem ignoredFieldsHaveNoEffect : Obligations.IgnoredFieldsHaveNoEffect := by
  unfold Obligations.IgnoredFieldsHaveNoEffect
  constructor
  · intro a b b' s
    and_intros <;> exact exec_congr rfl s
  · intro x y h h' s
    apply exec_congr
    simp [outcomeOf, gfmulOutcome, gfOperand_append, gfOperand_zext16]

end Sys2Proof.Machine
end

section
/-! PROOF. Characters and texts: white space, digits and letters, and how a text is trimmed and cut (30_encoding.md
R68). -/

namespace Sys2Proof.Machine

/-- A claim about the characters below a code is checked code by code. -/
theorem forall_char_of_toNat_lt {P : Char → Prop} (bound : Nat) (h : ∀ n < bound, P (Char.ofNat n)) (c : Char)
    (hc : c.toNat < bound) : P c :=
  Char.ofNat_toNat c ▸ h c.toNat hc

/-- White space is the six characters of the table (log entry 15). -/
theorem isSpace_iff (c : Char) : isSpace c = true ↔ c ∈ spaceTable := by
  constructor
  · intro h
    have hcode : c.toNat < 33 := by
      rcases (by simpa [isSpace] using h : c = ' ' ∨ 9 ≤ c.toNat ∧ c.toNat ≤ 13) with rfl | ⟨-, hhigh⟩
      · decide
      · omega
    exact forall_char_of_toNat_lt (P := fun c => isSpace c = true → c ∈ spaceTable) 33 (by decide) c hcode h
  · revert c
    simp [spaceTable, isSpace]

theorem isSpace_of_allSpace {gap : List Char} (h : AllSpace gap) : ∀ c ∈ gap, isSpace c = true :=
  fun c hc => (isSpace_iff c).mpr (h c hc)

/-- A character that stands within a word or an immediate: neither white space nor one of the two signs that a line is
cut at, `;` and `,` (30_encoding.md R68). -/
def isWordChar (c : Char) : Bool := !isSpace c && c != ';' && c != ','

theorem isWordChar_iff (c : Char) : isWordChar c = true ↔ isSpace c = false ∧ c ≠ ';' ∧ c ≠ ',' := by
  simp [isWordChar, and_assoc]

/-- White space is not one of the signs that a line is cut at. -/
theorem allSpace_ne_sign {gap : List Char} (h : AllSpace gap) : ∀ c ∈ gap, c ≠ ';' ∧ c ≠ ',' :=
  fun c hc => (by simp [spaceTable] : ∀ c ∈ spaceTable, c ≠ ';' ∧ c ≠ ',') c (h c hc)

/-! ### Trimming -/

theorem trimSpace_eq_rdropWhile (text : List Char) :
    trimSpace text = (text.dropWhile isSpace).rdropWhile isSpace := rfl

theorem trimSpace_append_left {gap : List Char} (h : AllSpace gap) (text : List Char) :
    trimSpace (gap ++ text) = trimSpace text := by
  rw [trimSpace, List.dropWhile_append_of_pos (isSpace_of_allSpace h), trimSpace]

theorem rdropWhile_append_allSpace {gap : List Char} (h : AllSpace gap) (text : List Char) :
    (text ++ gap).rdropWhile isSpace = text.rdropWhile isSpace := by
  rw [List.rdropWhile, List.reverse_append, List.dropWhile_append_of_pos, List.rdropWhile]
  simpa using isSpace_of_allSpace h

theorem trimSpace_append_right {gap : List Char} (h : AllSpace gap) (text : List Char) :
    trimSpace (text ++ gap) = trimSpace text := by
  rw [trimSpace_eq_rdropWhile, trimSpace_eq_rdropWhile, List.dropWhile_append]
  split
  next hblank =>
    rw [List.isEmpty_iff.mp hblank, List.dropWhile_eq_nil_iff.mpr (isSpace_of_allSpace h)]
  next => exact rdropWhile_append_allSpace h _

theorem trimSpace_allSpace {gap : List Char} (h : AllSpace gap) : trimSpace gap = [] := by
  rw [trimSpace, List.dropWhile_eq_nil_iff.mpr (isSpace_of_allSpace h)]
  rfl

/-- Trimming at the end stops at a word. -/
theorem rdropWhile_append_word {word : List Char} (hne : word ≠ []) (hword : ∀ c ∈ word, isSpace c = false)
    (front : List Char) : (front ++ word).rdropWhile isSpace = front ++ word := by
  rw [List.rdropWhile_eq_self_iff]
  intro hl
  simp [List.getLast_append_of_ne_nil _ hne, hword _ (List.getLast_mem hne)]

/-- A text that begins with a word is trimmed behind the word alone. -/
theorem trimSpace_word_append {word : List Char} (hne : word ≠ []) (hword : ∀ c ∈ word, isSpace c = false)
    (rest : List Char) : trimSpace (word ++ rest) = word ++ rest.rdropWhile isSpace := by
  have hdrop : (word ++ rest).dropWhile isSpace = word ++ rest := by
    obtain ⟨c, tail, rfl⟩ := List.exists_cons_of_ne_nil hne
    exact List.dropWhile_cons_of_neg (by simp [hword c])
  rw [trimSpace_eq_rdropWhile, hdrop, List.rdropWhile, List.reverse_append, List.dropWhile_append]
  split
  next hblank =>
    have hrest : rest.rdropWhile isSpace = [] := by simpa [List.rdropWhile] using hblank
    rw [hrest, List.append_nil]
    exact rdropWhile_append_word hne hword []
  next => simp [List.rdropWhile]

/-! ### Cutting a text at its separators -/

theorem splitText_of_no_separator {separates : Char → Bool} {part : List Char}
    (h : ∀ c ∈ part, separates c = false) : splitText separates part = [part] := by
  induction part with
  | nil => rfl
  | cons c rest ih =>
    obtain ⟨hc, hrest⟩ := List.forall_mem_cons.mp h
    simp [splitText, hc, ih hrest, consFirst]

theorem splitText_append_separator {separates : Char → Bool} {part : List Char}
    (h : ∀ c ∈ part, separates c = false) {sign : Char} (hsign : separates sign = true) (rest : List Char) :
    splitText separates (part ++ sign :: rest) = part :: splitText separates rest := by
  induction part with
  | nil => simp [splitText, hsign]
  | cons c part ih =>
    obtain ⟨hc, hpart⟩ := List.forall_mem_cons.mp h
    simp [splitText, hc, ih hpart, consFirst]

/-! ### Numbers -/

/-- Digits that have their values are read as the number they write. -/
theorem readDigits_map_fst {value : Char → Option Nat} {digits : List (Char × Nat)}
    (h : ∀ d ∈ digits, value d.1 = some d.2) (base acc : Nat) :
    readDigits value base acc (digits.map Prod.fst) = some (digits.foldl (fun acc d => acc * base + d.2) acc) := by
  induction digits generalizing acc with
  | nil => rfl
  | cons d rest ih =>
    obtain ⟨hd, hrest⟩ := List.forall_mem_cons.mp h
    simp [readDigits, hd, ih hrest]

theorem hexValue_of_mem : ∀ d ∈ hexDigitTable, hexValue d.1 = some d.2 := by decide

theorem decimalValue_of_mem : ∀ d ∈ hexDigitTable.take 10, decimalValue d.1 = some d.2 := by decide

theorem isWordChar_of_mem_hexDigitTable : ∀ d ∈ hexDigitTable, isWordChar d.1 = true := by decide

/-- A text without the letter `x` is read as decimal digits. -/
theorem readImmediate_of_no_x {text : List Char} (hne : text ≠ []) (hx : 'x' ∉ text) :
    readImmediate text = readDigits decimalValue 10 0 text := by
  unfold readImmediate
  split
  next => exact absurd rfl hne
  next => simp at hx
  next => simp at hx
  next => rfl

/-- A text that writes a number is read as the number (30_encoding.md R68). -/
theorem readImmediate_of_writes {text : List Char} {v : Nat} (h : WritesImmediate text v) :
    readImmediate text = some v := by
  rcases h with ⟨digits, hne, hmem, rfl, rfl⟩ | ⟨digits, hne, hmem, rfl, rfl⟩
  · obtain ⟨d, rest, rfl⟩ := List.exists_cons_of_ne_nil hne
    exact readDigits_map_fst (fun e he => hexValue_of_mem e (hmem e he)) 16 0
  · have hx : 'x' ∉ digits.map Prod.fst := by
      intro hx
      obtain ⟨d, hd, hdx⟩ := List.mem_map.mp hx
      exact (by simp [hexDigitTable] : ∀ d ∈ hexDigitTable.take 10, d.1 ≠ 'x') d (hmem d hd) hdx
    rw [readImmediate_of_no_x (by simpa using hne) hx]
    exact readDigits_map_fst (fun e he => decimalValue_of_mem e (hmem e he)) 10 0

theorem writesImmediate_ne_nil {text : List Char} {v : Nat} (h : WritesImmediate text v) : text ≠ [] := by
  rcases h with ⟨digits, -, -, rfl, -⟩ | ⟨digits, hne, -, rfl, -⟩
  · simp
  · simpa using hne

theorem writesImmediate_isWordChar {text : List Char} {v : Nat} (h : WritesImmediate text v) :
    ∀ c ∈ text, isWordChar c = true := by
  rcases h with ⟨digits, -, hmem, rfl, -⟩ | ⟨digits, -, hmem, rfl, -⟩
  · have hdigits : ∀ c ∈ digits.map Prod.fst, isWordChar c = true :=
      List.forall_mem_map.mpr fun d hd => isWordChar_of_mem_hexDigitTable d (hmem d hd)
    exact List.forall_mem_cons.mpr ⟨by decide, List.forall_mem_cons.mpr ⟨by decide, hdigits⟩⟩
  · exact List.forall_mem_map.mpr fun d hd => isWordChar_of_mem_hexDigitTable d (List.mem_of_mem_take (hmem d hd))

/-! ### Mnemonics -/

/-- The characters read as a capital are the capital itself and its small letter. -/
theorem toUpperCase_eq_iff {capital : Char} (hcapital : ¬ (97 ≤ capital.toNat ∧ capital.toNat ≤ 122)) (c : Char) :
    toUpperCase c = capital ↔ c = capital ∨ (capital, c) ∈ letterPairs := by
  constructor
  · rintro rfl
    by_cases hsmall : 97 ≤ c.toNat ∧ c.toNat ≤ 122
    · exact .inr (forall_char_of_toNat_lt (P := fun c => 97 ≤ c.toNat → (toUpperCase c, c) ∈ letterPairs) 123
        (by decide) c (by omega) hsmall.1)
    · exact .inl (by simp [toUpperCase, hsmall])
  · rintro (rfl | hpair)
    · simp [toUpperCase, hcapital]
    · exact (by decide : ∀ p ∈ letterPairs, toUpperCase p.2 = p.1) _ hpair

theorem letters_have_no_small (m : Mnemonic) : ∀ c ∈ m.letters, ¬ (97 ≤ c.toNat ∧ c.toNat ≤ 122) := by
  cases m <;> simp [Mnemonic.letters]

theorem spells_iff_map_toUpperCase {name : List Char} (hname : ∀ c ∈ name, ¬ (97 ≤ c.toNat ∧ c.toNat ≤ 122))
    (word : List Char) : Spells word name ↔ word.map toUpperCase = name := by
  unfold Spells
  induction name generalizing word with
  | nil => simp
  | cons capital name ih =>
    obtain ⟨hcapital, hname⟩ := List.forall_mem_cons.mp hname
    cases word with
    | nil => simp
    | cons c word => simp [ih hname word, toUpperCase_eq_iff hcapital c]

/-- The table finds a mnemonic by its letters, which no other has. -/
theorem find_letters (m : Mnemonic) : allMnemonics.find? (fun n => n.letters == m.letters) = some m := by
  cases m <;> rfl

/-- A word is read as a mnemonic exactly if it spells it (30_encoding.md R68). -/
theorem readMnemonic_eq_some_iff (word : List Char) (m : Mnemonic) :
    readMnemonic word = some m ↔ Spells word m.letters := by
  rw [spells_iff_map_toUpperCase (letters_have_no_small m), readMnemonic]
  constructor
  · intro hfound
    exact (by simpa using List.find?_some hfound : m.letters = word.map toUpperCase).symm
  · intro hword
    rw [hword, find_letters]

/-- Settles O7, at the letters of each mnemonic. -/
theorem mnemonicsAreCaseInsensitive : Obligations.MnemonicsAreCaseInsensitive := by
  unfold Obligations.MnemonicsAreCaseInsensitive
  have hletters : ∀ p ∈ [(Mnemonic.sub, ['S', 'U', 'B']), (.subi, ['S', 'U', 'B', 'I']), (.mix, ['M', 'I', 'X']),
      (.mixi, ['M', 'I', 'X', 'I']), (.shr, ['S', 'H', 'R']), (.ark, ['A', 'R', 'K']),
      (.keyexp, ['K', 'E', 'Y', 'E', 'X', 'P']), (.dec, ['D', 'E', 'C']), (.gfmul, ['G', 'F', 'M', 'U', 'L'])],
      p.2 = p.1.letters := by decide
  exact ⟨fun p hp word => hletters p hp ▸ readMnemonic_eq_some_iff word p.1,
    fun word => readMnemonic_eq_some_iff word .cmd⟩

theorem letters_isWordChar (m : Mnemonic) : ∀ c ∈ m.letters, isWordChar c = true := by
  cases m <;> simp [Mnemonic.letters, isWordChar, isSpace]

/-- A spelling of a name holds neither white space nor a sign that a line is cut at, if the name holds none. -/
theorem isWordChar_of_spells {word name : List Char} (h : Spells word name)
    (hname : ∀ c ∈ name, isWordChar c = true) : ∀ c ∈ word, isWordChar c = true := by
  unfold Spells at h
  induction h with
  | nil => simp
  | @cons c capital _ _ hc _ ih =>
    obtain ⟨hcapital, hname⟩ := List.forall_mem_cons.mp hname
    refine List.forall_mem_cons.mpr ⟨?_, ih hname⟩
    rcases hc with rfl | hpair
    · exact hcapital
    · exact (by decide : ∀ p ∈ letterPairs, isWordChar p.2 = true) _ hpair

end Sys2Proof.Machine
end

section
/-! PROOF. The assembler: where a term's immediates go, and how a line's text is read (30_encoding.md R68). -/

namespace Sys2Proof.Machine

/-! ### Terms -/

/-- A term with an immediate out of its range is refused, not truncated. -/
theorem assemble_of_not_wellFormed {t : Source} (h : t.wellFormed = false) :
    assemble t = .error .immediateOutOfRange := by
  simp [assemble, h]

@[simp] theorem assemble_sub (v : Block) : assemble (.sub v.toNat) = .ok (encode (.sub v 0)) := by
  simp [assemble, Source.wellFormed, sourceWord, v.isLt]

@[simp] theorem assemble_subi (v : Block) : assemble (.subi v.toNat) = .ok (encode (.subi v 0)) := by
  simp [assemble, Source.wellFormed, sourceWord, v.isLt]

@[simp] theorem assemble_mix (v : Block) : assemble (.mix v.toNat) = .ok (encode (.mix v 0)) := by
  simp [assemble, Source.wellFormed, sourceWord, v.isLt]

@[simp] theorem assemble_mixi (v : Block) : assemble (.mixi v.toNat) = .ok (encode (.mixi v 0)) := by
  simp [assemble, Source.wellFormed, sourceWord, v.isLt]

@[simp] theorem assemble_shr (v : Block) : assemble (.shr v.toNat) = .ok (encode (.shr v 0)) := by
  simp [assemble, Source.wellFormed, sourceWord, v.isLt]

@[simp] theorem assemble_keyexp (k : Block) : assemble (.keyexp k.toNat) = .ok (encode (.keyexp 0 k)) := by
  simp [assemble, Source.wellFormed, sourceWord, k.isLt]

@[simp] theorem assemble_ark (v k : Block) : assemble (.ark v.toNat k.toNat) = .ok (encode (.ark v k)) := by
  simp [assemble, Source.wellFormed, sourceWord, v.isLt, k.isLt]

@[simp] theorem assemble_dec (v k : Block) : assemble (.dec v.toNat k.toNat) = .ok (encode (.dec v k)) := by
  simp [assemble, Source.wellFormed, sourceWord, v.isLt, k.isLt]

@[simp] theorem assemble_gfmul (x y : Nibble) :
    assemble (.gfmul x.toNat y.toNat) = .ok (encode (.gfmul (zext16 x) (zext16 y))) := by
  simp [assemble, Source.wellFormed, sourceWord, x.isLt, y.isLt]

@[simp] theorem assemble_raw (w : CmdWord) : assemble (.raw w.toNat) = .ok w := by
  simp [assemble, Source.wellFormed, sourceWord, w.isLt]

/-- Settles O6: one equation per term in range, and `assemble_of_not_wellFormed` for the others. -/
theorem assemblerPlacesOperands : Obligations.AssemblerPlacesOperands := by
  unfold Obligations.AssemblerPlacesOperands
  refine ⟨fun v k => ?_, assemble_gfmul, assemble_raw, fun v k hv => ?_, fun x y hx => ?_, fun w hw => ?_⟩
  · simp
  · and_intros <;> exact assemble_of_not_wellFormed (by simp [Source.wellFormed]; omega)
  · and_intros <;> exact assemble_of_not_wellFormed (by simp [Source.wellFormed]; omega)
  · exact assemble_of_not_wellFormed (by simpa [Source.wellFormed] using hw)

/-! ### Lines -/

/-- A line up to its comment (30_encoding.md R68). -/
def withoutComment (line : List Char) : List Char := line.takeWhile (fun c => !(c == ';'))

theorem withoutComment_append {text : List Char} (h : ∀ c ∈ text, c ≠ ';') (rest : List Char) :
    withoutComment (text ++ rest) = text ++ withoutComment rest :=
  List.takeWhile_append_of_pos (by simpa using h)

theorem withoutComment_eq_self {text : List Char} (h : ∀ c ∈ text, c ≠ ';') : withoutComment text = text :=
  List.takeWhile_eq_self_iff.mpr (by simpa using h)

/-- What stands behind a line is cut off with the line's comment, or else is read on from the line's end. -/
theorem withoutComment_append_cases (line rest : List Char) :
    withoutComment (line ++ rest) = withoutComment line ∨
      (withoutComment line = line ∧ withoutComment (line ++ rest) = line ++ withoutComment rest) := by
  by_cases h : ∀ c ∈ line, c ≠ ';'
  · exact .inr ⟨withoutComment_eq_self h, withoutComment_append h rest⟩
  · left
    rw [withoutComment, List.takeWhile_append, if_neg, withoutComment]
    intro hlength
    have hline := List.takeWhile_eq_self_iff.mp ((List.takeWhile_prefix _).eq_of_length hlength)
    exact h (by simpa using hline)

/-- The text of a line's command, without its comment and the white space around it (30_encoding.md R68). -/
def commandText (line : List Char) : List Char := trimSpace (withoutComment line)

/-- What a line answers once its command is read: the term's word, or a refusal. -/
def answerOf : Option Source → Except AsmError (Option CmdWord)
  | none => .error .badSyntax
  | some t => (assemble t).map some

@[simp] theorem answerOf_none : answerOf none = .error .badSyntax := rfl

@[simp] theorem answerOf_some (t : Source) : answerOf (some t) = (assemble t).map some := rfl

/-- A line is its command's text. -/
theorem assembleLine_congr {line line' : List Char} (h : commandText line = commandText line') :
    assembleLine line = assembleLine line' := by
  simp only [commandText, withoutComment] at h
  simp only [assembleLine, h]

theorem assembleLine_blank {line : List Char} (h : commandText line = []) : assembleLine line = .ok none := by
  simp only [commandText, withoutComment] at h
  simp only [assembleLine, h]

theorem assembleLine_command {line : List Char} (h : commandText line ≠ []) :
    assembleLine line = answerOf (readCommand (commandText line)) := by
  generalize htext : commandText line = text at h ⊢
  simp only [commandText, withoutComment] at htext
  simp only [assembleLine, htext]
  cases text with
  | nil => exact absurd rfl h
  | cons c rest =>
    cases readCommand (c :: rest) with
    | none => rfl
    | some t => cases hword : assemble t <;> simp [hword, Except.map]

/-- A comment changes nothing. -/
theorem commandText_comment (line comment : List Char) : commandText (line ++ ';' :: comment) = commandText line := by
  rw [commandText, commandText]
  rcases withoutComment_append_cases line (';' :: comment) with h | ⟨hline, h⟩
  · rw [h]
  · rw [h, hline]
    simp [withoutComment]

theorem commandText_append_left {gap : List Char} (h : AllSpace gap) (line : List Char) :
    commandText (gap ++ line) = commandText line := by
  rw [commandText, withoutComment_append (fun c hc => (allSpace_ne_sign h c hc).1), trimSpace_append_left h,
    commandText]

theorem commandText_append_right {gap : List Char} (h : AllSpace gap) (line : List Char) :
    commandText (line ++ gap) = commandText line := by
  rw [commandText, commandText]
  rcases withoutComment_append_cases line gap with hcut | ⟨hline, hcut⟩
  · rw [hcut]
  · rw [hcut, hline, withoutComment_eq_self (fun c hc => (allSpace_ne_sign h c hc).1), trimSpace_append_right h]

theorem commandText_allSpace {gap : List Char} (h : AllSpace gap) : commandText gap = [] := by
  rw [commandText, withoutComment_eq_self (fun c hc => (allSpace_ne_sign h c hc).1), trimSpace_allSpace h]

/-- The front of a text that begins with white space begins with it too. -/
theorem head_isSpace_of_prefix {front text : List Char} (hprefix : front <+: text)
    (htext : ∀ c ∈ text.head?, isSpace c = true) : ∀ c ∈ front.head?, isSpace c = true := by
  obtain ⟨rest, rfl⟩ := hprefix
  cases front with
  | nil => simp
  | cons c front => simpa using htext

/-- A command is its first word, read as a mnemonic, and the immediates behind it. -/
theorem readCommand_word_append {word : List Char} (hword : ∀ c ∈ word, isSpace c = false) {rest : List Char}
    (hrest : ∀ c ∈ rest.head?, isSpace c = true) :
    readCommand (word ++ rest) = (readMnemonic word).bind fun m => (readImmediates rest).bind (sourceOf m) := by
  have htake : (word ++ rest).takeWhile (fun c => !isSpace c) = word := by
    rw [List.takeWhile_append_of_pos (by simpa using hword)]
    cases rest <;> simp_all
  have hdrop : (word ++ rest).dropWhile (fun c => !isSpace c) = rest := by
    rw [List.dropWhile_append_of_pos (by simpa using hword)]
    cases rest <;> simp_all
  rw [readCommand, htake, hdrop]
  cases readMnemonic word <;> cases readImmediates rest <;> rfl

/-- How a line that begins with a word is read: the word as a mnemonic, what follows it up to a comment as immediates. -/
theorem assembleLine_word_append {word : List Char} (hne : word ≠ [])
    (hword : ∀ c ∈ word, isSpace c = false ∧ c ≠ ';') {rest : List Char}
    (hrest : ∀ c ∈ rest.head?, isSpace c = true) :
    assembleLine (word ++ rest) =
      answerOf ((readMnemonic word).bind fun m =>
        (readImmediates ((withoutComment rest).rdropWhile isSpace)).bind (sourceOf m)) := by
  have hspace : ∀ c ∈ word, isSpace c = false := fun c hc => (hword c hc).1
  have htext : commandText (word ++ rest) =
      word ++ (withoutComment rest).rdropWhile isSpace := by
    rw [commandText, withoutComment_append (fun c hc => (hword c hc).2), trimSpace_word_append hne hspace]
  rw [assembleLine_command (by simp [htext, hne]), htext, readCommand_word_append hspace]
  exact head_isSpace_of_prefix ((List.rdropWhile_prefix isSpace _).trans (List.takeWhile_prefix _)) hrest

/-! ### Immediates -/

theorem readImmediates_nil : readImmediates [] = none := rfl

theorem readImmediates_of_no_comma {part : List Char} (h : ∀ c ∈ part, c ≠ ',') :
    readImmediates part = (readImmediate (trimSpace part)).map fun v => [v] := by
  rw [readImmediates, splitText_of_no_separator (by simpa using h)]
  cases hv : readImmediate (trimSpace part) <;> simp [hv]

theorem readImmediates_append_comma {part : List Char} (h : ∀ c ∈ part, c ≠ ',') (rest : List Char) :
    readImmediates (part ++ ',' :: rest) =
      (readImmediate (trimSpace part)).bind fun v => (readImmediates rest).map fun vs => v :: vs := by
  rw [readImmediates, readImmediates, splitText_append_separator (by simpa using h) (by simp), List.mapM_cons]
  cases readImmediate (trimSpace part) with
  | none => rfl
  | some v => exact (Option.map_eq_bind ..).symm

/-- An immediate has no white space in it. -/
theorem writesImmediate_no_space {text : List Char} {v : Nat} (h : WritesImmediate text v) :
    ∀ c ∈ text, isSpace c = false :=
  fun c hc => ((isWordChar_iff c).mp (writesImmediate_isWordChar h c hc)).1

/-- White space around an immediate changes nothing (log entry 14). -/
theorem readImmediate_trimSpace {gap gap' text : List Char} {v : Nat} (hgap : AllSpace gap)
    (htext : WritesImmediate text v) (hgap' : AllSpace gap') :
    readImmediate (trimSpace (gap ++ text ++ gap')) = some v := by
  have htrim : trimSpace text = text := by
    simpa using trimSpace_word_append (writesImmediate_ne_nil htext) (writesImmediate_no_space htext) []
  rw [trimSpace_append_right hgap', trimSpace_append_left hgap, htrim, readImmediate_of_writes htext]

/-- An immediate with white space around it holds no sign that a line is cut at. -/
theorem padded_ne_sign {gap gap' text : List Char} {v : Nat} (hgap : AllSpace gap)
    (htext : WritesImmediate text v) (hgap' : AllSpace gap') : ∀ c ∈ gap ++ text ++ gap', c ≠ ';' ∧ c ≠ ',' := by
  intro c hc
  rcases List.mem_append.mp hc with hc | hc
  · rcases List.mem_append.mp hc with hc | hc
    · exact allSpace_ne_sign hgap c hc
    · exact ((isWordChar_iff c).mp (writesImmediate_isWordChar htext c hc)).2
  · exact allSpace_ne_sign hgap' c hc

theorem allSpace_nil : AllSpace [] := by simp [AllSpace]

theorem readImmediates_one {gap text : List Char} {v : Nat} (hgap : AllSpace gap) (htext : WritesImmediate text v) :
    readImmediates (gap ++ text) = some [v] := by
  have hread := readImmediate_trimSpace hgap htext allSpace_nil
  have hsign := padded_ne_sign hgap htext allSpace_nil
  rw [List.append_nil] at hread hsign
  rw [readImmediates_of_no_comma fun c hc => (hsign c hc).2, hread]
  rfl

theorem readImmediates_two {gap text gap1 gap2 text' : List Char} {v v' : Nat} (hgap : AllSpace gap)
    (htext : WritesImmediate text v) (hgap1 : AllSpace gap1) (hgap2 : AllSpace gap2)
    (htext' : WritesImmediate text' v') :
    readImmediates (gap ++ text ++ gap1 ++ ',' :: (gap2 ++ text')) = some [v, v'] := by
  rw [readImmediates_append_comma fun c hc => (padded_ne_sign hgap htext hgap1 c hc).2,
    readImmediate_trimSpace hgap htext hgap1, readImmediates_one hgap2 htext']
  rfl

/-! ### The shapes of a line -/

theorem head_isSpace_of_allSpace {gap : List Char} (h : AllSpace gap) (hne : gap ≠ []) (rest : List Char) :
    ∀ c ∈ (gap ++ rest).head?, isSpace c = true := by
  obtain ⟨c, tail, rfl⟩ := List.exists_cons_of_ne_nil hne
  simpa using isSpace_of_allSpace h c List.mem_cons_self

theorem spells_ne_nil {word : List Char} {m : Mnemonic} (h : Spells word m.letters) : word ≠ [] := by
  rintro rfl
  cases m <;> cases h

/-- A line of a mnemonic and operands that are not cut short is the mnemonic's term with their immediates. -/
theorem assembleLine_mnemonic {word operands : List Char} {m : Mnemonic} (hword : Spells word m.letters)
    (hhead : ∀ c ∈ operands.head?, isSpace c = true) (hsemicolon : ∀ c ∈ operands, c ≠ ';')
    (hend : operands.rdropWhile isSpace = operands) :
    assembleLine (word ++ operands) = answerOf ((readImmediates operands).bind (sourceOf m)) := by
  have hchars : ∀ c ∈ word, isSpace c = false ∧ c ≠ ';' := fun c hc =>
    have ⟨hspace, hsemi, _⟩ := (isWordChar_iff c).mp (isWordChar_of_spells hword (letters_isWordChar m) c hc)
    ⟨hspace, hsemi⟩
  rw [assembleLine_word_append (spells_ne_nil hword) hchars hhead, withoutComment_eq_self hsemicolon, hend,
    (readMnemonic_eq_some_iff word m).mpr hword, Option.bind_some]

theorem assembleLine_no_immediate {word : List Char} {m : Mnemonic} (hword : Spells word m.letters) :
    assembleLine word = .error .badSyntax := by
  simpa [readImmediates_nil] using assembleLine_mnemonic (operands := []) hword (by simp) (by simp) rfl

theorem assembleLine_one_immediate {word gap text : List Char} {m : Mnemonic} {v : Nat}
    (hword : Spells word m.letters) (hgap : AllSpace gap) (hne : gap ≠ []) (htext : WritesImmediate text v) :
    assembleLine (word ++ gap ++ text) = answerOf (sourceOf m [v]) := by
  have hsign := padded_ne_sign hgap htext allSpace_nil
  rw [List.append_nil] at hsign
  rw [List.append_assoc, assembleLine_mnemonic hword (head_isSpace_of_allSpace hgap hne text)
    (fun c hc => (hsign c hc).1)
    (rdropWhile_append_word (writesImmediate_ne_nil htext) (writesImmediate_no_space htext) gap),
    readImmediates_one hgap htext, Option.bind_some]

theorem assembleLine_two_immediates {word gap text gap1 gap2 text' : List Char} {m : Mnemonic} {v v' : Nat}
    (hword : Spells word m.letters) (hgap : AllSpace gap) (hne : gap ≠ []) (htext : WritesImmediate text v)
    (hgap1 : AllSpace gap1) (hgap2 : AllSpace gap2) (htext' : WritesImmediate text' v') :
    assembleLine (word ++ gap ++ text ++ gap1 ++ [','] ++ gap2 ++ text') = answerOf (sourceOf m [v, v']) := by
  have hshape : word ++ gap ++ text ++ gap1 ++ [','] ++ gap2 ++ text' =
      word ++ (gap ++ text ++ gap1 ++ ',' :: (gap2 ++ text')) := by simp
  have hhead : ∀ c ∈ (gap ++ text ++ gap1 ++ ',' :: (gap2 ++ text')).head?, isSpace c = true := by
    simpa using head_isSpace_of_allSpace hgap hne (text ++ (gap1 ++ ',' :: (gap2 ++ text')))
  have hsemicolon : ∀ c ∈ gap ++ text ++ gap1 ++ ',' :: (gap2 ++ text'), c ≠ ';' := by
    have hsecond := padded_ne_sign hgap2 htext' allSpace_nil
    rw [List.append_nil] at hsecond
    exact List.forall_mem_append.mpr ⟨fun c hc => (padded_ne_sign hgap htext hgap1 c hc).1,
      List.forall_mem_cons.mpr ⟨by decide, fun c hc => (hsecond c hc).1⟩⟩
  have hend : (gap ++ text ++ gap1 ++ ',' :: (gap2 ++ text')).rdropWhile isSpace =
      gap ++ text ++ gap1 ++ ',' :: (gap2 ++ text') := by
    simpa using rdropWhile_append_word (writesImmediate_ne_nil htext') (writesImmediate_no_space htext')
      (gap ++ text ++ gap1 ++ ',' :: gap2)
  rw [hshape, assembleLine_mnemonic hword hhead hsemicolon hend,
    readImmediates_two hgap htext hgap1 hgap2 htext', Option.bind_some]

theorem spells_letters (m : Mnemonic) : Spells m.letters m.letters :=
  List.forall₂_same.mpr fun _ _ => .inl rfl

/-- A word that spells none of the mnemonics is read as none. -/
theorem readMnemonic_eq_none {word : List Char} (h : ∀ m : Mnemonic, ¬ Spells word m.letters) :
    readMnemonic word = none :=
  Option.eq_none_iff_forall_ne_some.mpr fun m hm => h m ((readMnemonic_eq_some_iff word m).mp hm)

/-- A mnemonic of the grammar with one immediate, and the term it gives (30_encoding.md R68). -/
def Mnemonic.TakesOne (m : Mnemonic) (term : Nat → Source) : Prop :=
  (∀ v, sourceOf m [v] = some (term v)) ∧ ∀ v v', sourceOf m [v, v'] = none

/-- A mnemonic of the grammar with two immediates, and the term it gives (30_encoding.md R68). -/
def Mnemonic.TakesTwo (m : Mnemonic) (term : Nat → Nat → Source) : Prop :=
  (∀ v, sourceOf m [v] = none) ∧ ∀ v v', sourceOf m [v, v'] = some (term v v')

/-- A line that begins with a word that is no mnemonic is refused (30_encoding.md R68). -/
theorem assembleLine_no_mnemonic {word : List Char} (hne : word ≠ []) (hchars : ∀ c ∈ word, c ∉ spaceTable ∧ c ≠ ';')
    (hspells : ∀ m : Mnemonic, ¬ Spells word m.letters) {c : Char} (hc : c ∈ spaceTable) (text : List Char) :
    assembleLine (word ++ c :: text) = .error .badSyntax := by
  have hword : ∀ c ∈ word, isSpace c = false ∧ c ≠ ';' := fun c hc =>
    ⟨Bool.eq_false_iff.mpr fun h => (hchars c hc).1 ((isSpace_iff c).mp h), (hchars c hc).2⟩
  rw [assembleLine_word_append hne hword (by simpa using (isSpace_iff c).mpr hc), readMnemonic_eq_none hspells]
  rfl

/-- Settles O50: each shape of a line by its lemma, with the mnemonic that the word spells. -/
theorem assemblerReadsLines : Obligations.AssemblerReadsLines := by
  unfold Obligations.AssemblerReadsLines
  intro one two
  have hone : ∀ p ∈ one, ∃ m : Mnemonic, m.letters = p.1 ∧ m.TakesOne p.2 := by
    simp only [one, List.forall_mem_cons]
    exact ⟨⟨.sub, rfl, fun _ => rfl, fun _ _ => rfl⟩, ⟨.subi, rfl, fun _ => rfl, fun _ _ => rfl⟩,
      ⟨.mix, rfl, fun _ => rfl, fun _ _ => rfl⟩, ⟨.mixi, rfl, fun _ => rfl, fun _ _ => rfl⟩,
      ⟨.shr, rfl, fun _ => rfl, fun _ _ => rfl⟩, ⟨.keyexp, rfl, fun _ => rfl, fun _ _ => rfl⟩,
      ⟨.cmd, rfl, fun _ => rfl, fun _ _ => rfl⟩, by simp⟩
  have htwo : ∀ p ∈ two, ∃ m : Mnemonic, m.letters = p.1 ∧ m.TakesTwo p.2 := by
    simp only [two, List.forall_mem_cons]
    exact ⟨⟨.ark, rfl, fun _ => rfl, fun _ _ => rfl⟩, ⟨.dec, rfl, fun _ => rfl, fun _ _ => rfl⟩,
      ⟨.gfmul, rfl, fun _ => rfl, fun _ _ => rfl⟩, by simp⟩
  have hall : ∀ m : Mnemonic, m.letters ∈ one.map Prod.fst ∨ m.letters ∈ two.map Prod.fst := by
    intro m
    cases m <;> simp [one, two, Mnemonic.letters]
  refine ⟨fun line comment => assembleLine_congr (commandText_comment line comment),
    fun gap hgap => assembleLine_blank (commandText_allSpace hgap),
    fun gap line hgap => ⟨assembleLine_congr (commandText_append_left hgap line),
      assembleLine_congr (commandText_append_right hgap line)⟩, ?_, ?_, ?_, ?_⟩
  · intro word gap text v hgap hne htext
    constructor
    · intro p hp hword
      obtain ⟨m, hm, hterm, -⟩ := hone p hp
      rw [assembleLine_one_immediate (hm ▸ hword) hgap hne htext, hterm, answerOf_some]
    · intro p hp hword
      obtain ⟨m, hm, hnone, -⟩ := htwo p hp
      rw [assembleLine_one_immediate (hm ▸ hword) hgap hne htext, hnone, answerOf_none]
  · intro word gap text gap1 gap2 text' v v' hgap hne hgap1 hgap2 htext htext'
    constructor
    · intro p hp hword
      obtain ⟨m, hm, -, hterm⟩ := htwo p hp
      rw [assembleLine_two_immediates (hm ▸ hword) hgap hne htext hgap1 hgap2 htext', hterm, answerOf_some]
    · intro p hp hword
      obtain ⟨m, hm, -, hnone⟩ := hone p hp
      rw [assembleLine_two_immediates (hm ▸ hword) hgap hne htext hgap1 hgap2 htext', hnone, answerOf_none]
  · intro word
    constructor
    · intro p hp hword
      obtain ⟨m, hm, -⟩ := hone p hp
      exact assembleLine_no_immediate (hm ▸ hword)
    · intro p hp hword
      obtain ⟨m, hm, -⟩ := htwo p hp
      exact assembleLine_no_immediate (hm ▸ hword)
  · intro word hne hchars hnotOne hnotTwo c text hc
    refine assembleLine_no_mnemonic hne hchars (fun m hm => ?_) hc text
    rcases hall m with h | h
    · obtain ⟨p, hp, hpm⟩ := List.mem_map.mp h
      exact hnotOne p hp (hpm ▸ hm)
    · obtain ⟨p, hp, hpm⟩ := List.mem_map.mp h
      exact hnotTwo p hp (hpm ▸ hm)

end Sys2Proof.Machine
end

section
/-! PROOF. The disassembler: the text of a word assembles back to it (30_encoding.md R69). -/

namespace Sys2Proof.Machine

/-! ### Printed numbers -/

/-- The printed digit of a nibble with its value. -/
def nibbleDigit (n : Nibble) : Char × Nat := (hexDigit n, n.toNat)

/-- The printed digits of a block with their values. -/
def blockDigits (b : Block) : List (Char × Nat) :=
  [nibbleDigit (nib b 0), nibbleDigit (nib b 1), nibbleDigit (nib b 2), nibbleDigit (nib b 3)]

theorem nibbleDigit_mem (n : Nibble) : nibbleDigit n ∈ hexDigitTable := by
  revert n
  decide

theorem blockDigits_mem (b : Block) : ∀ d ∈ blockDigits b, d ∈ hexDigitTable := by
  simp [blockDigits, nibbleDigit_mem]

/-- A block is the number that its nibbles write in base 16. -/
theorem block_toNat_eq (b : Block) :
    b.toNat = (((nib b 0).toNat * 16 + (nib b 1).toNat) * 16 + (nib b 2).toNat) * 16 + (nib b 3).toNat := by
  have hb := b.isLt
  simp [nib]
  omega

/-- A block's digits, read on from a number, append the block to it. -/
theorem foldl_blockDigits (acc : Nat) (b : Block) :
    (blockDigits b).foldl (fun acc d => acc * 16 + d.2) acc = acc * 2 ^ 16 + b.toNat := by
  simp [blockDigits, nibbleDigit, block_toNat_eq b]
  omega

theorem writesImmediate_printNibble (n : Nibble) : WritesImmediate (printNibble n) n.toNat :=
  .inl ⟨[nibbleDigit n], by simp, by simp [nibbleDigit_mem], rfl, by simp [digitsValue, nibbleDigit]⟩

theorem writesImmediate_printBlock (b : Block) : WritesImmediate (printBlock b) b.toNat :=
  .inl ⟨blockDigits b, by simp [blockDigits], blockDigits_mem b, rfl,
    by simpa [digitsValue] using (foldl_blockDigits 0 b).symm⟩

/-- A word is the number of its three fields. -/
theorem cmdWord_toNat_eq (w : CmdWord) :
    w.toNat = ((opField w).toNat * 2 ^ 16 + (aField w).toNat) * 2 ^ 16 + (bField w).toNat := by
  have hw := w.isLt
  simp [opField, aField, bField]
  omega

/-- A word's nine digits with their values. -/
def wordDigits (w : CmdWord) : List (Char × Nat) :=
  nibbleDigit (opField w) :: (blockDigits (aField w) ++ blockDigits (bField w))

theorem writesImmediate_wordDigits (w : CmdWord) :
    WritesImmediate ('0' :: 'x' :: (wordDigits w).map Prod.fst) w.toNat := by
  refine .inl ⟨wordDigits w, by simp [wordDigits], ?_, rfl, ?_⟩
  · simp only [wordDigits, List.forall_mem_cons, List.forall_mem_append]
    exact ⟨nibbleDigit_mem _, blockDigits_mem _, blockDigits_mem _⟩
  · rw [digitsValue, wordDigits, List.foldl_cons, List.foldl_append, foldl_blockDigits, foldl_blockDigits,
      cmdWord_toNat_eq w]
    simp [nibbleDigit]

/-! ### Printed lines -/

theorem allSpace_blank : AllSpace [' '] := by simp [AllSpace, spaceTable]

/-- A printed raw word assembles to the word. -/
theorem assembleLine_printRaw (w : CmdWord) : assembleLine (printRaw w) = .ok (some w) := by
  have hword : Spells ['.', 'c', 'm', 'd'] Mnemonic.cmd.letters := by unfold Spells; decide
  have hline := assembleLine_one_immediate hword allSpace_blank (by simp) (writesImmediate_wordDigits w)
  calc assembleLine (printRaw w)
      = answerOf (sourceOf .cmd [w.toNat]) := hline
    _ = .ok (some w) := by simp [sourceOf, Except.map]

theorem assembleLine_print_one {m : Mnemonic} (b : Block) :
    assembleLine (m.letters ++ [' '] ++ printBlock b) = answerOf (sourceOf m [b.toNat]) :=
  assembleLine_one_immediate (spells_letters m) allSpace_blank (by simp) (writesImmediate_printBlock b)

theorem assembleLine_print_two {m : Mnemonic} {text text' : List Char} {v v' : Nat} (htext : WritesImmediate text v)
    (htext' : WritesImmediate text' v') :
    assembleLine (m.letters ++ [' '] ++ text ++ [',', ' '] ++ text') = answerOf (sourceOf m [v, v']) := by
  simpa using
    assembleLine_two_immediates (spells_letters m) allSpace_blank (by simp) htext allSpace_nil allSpace_blank htext'

/-- A block with nothing above its low nibble is that nibble zero-extended. -/
theorem zext16_gfOperand {v : Block} (h : v.extractLsb' 4 12 = 0) : zext16 (gfOperand v) = v := by
  have hv := v.isLt
  have hhigh := congrArg BitVec.toNat h
  apply BitVec.eq_of_toNat_eq
  simp [zext16, gfOperand, Nat.shiftRight_eq_div_pow] at hhigh ⊢
  omega

/-- The mnemonic form of a command with 0 in its ignored fields assembles to the command's word. -/
theorem assembleLine_mnemonicForm {i : Instr} {form : List Char} (hform : mnemonicForm i = some form)
    (hcanonical : i.canonical = true) : assembleLine form = .ok (some (encode i)) := by
  cases i with
  | sub a b | subi a b | mix a b | mixi a b | shr a b =>
    obtain rfl : b = 0 := by simpa [Instr.canonical] using hcanonical
    cases hform
    rw [assembleLine_print_one]
    simp [sourceOf, Except.map]
  | keyexp a b =>
    obtain rfl : a = 0 := by simpa [Instr.canonical] using hcanonical
    cases hform
    rw [assembleLine_print_one]
    simp [sourceOf, Except.map]
  | ark a b | dec a b =>
    cases hform
    rw [assembleLine_print_two (writesImmediate_printBlock a) (writesImmediate_printBlock b)]
    simp [sourceOf, Except.map]
  | gfmul a b =>
    obtain ⟨ha, hb⟩ : a.extractLsb' 4 12 = 0 ∧ b.extractLsb' 4 12 = 0 := by simpa [Instr.canonical] using hcanonical
    cases hform
    rw [assembleLine_print_two (writesImmediate_printNibble _) (writesImmediate_printNibble _)]
    simp [sourceOf, Except.map, zext16_gfOperand ha, zext16_gfOperand hb]
  | reserved9 a b | reservedA a b | reservedB a b | reservedC a b | reservedD a b | reservedE a b | reservedF a b =>
    cases hform

/-- A word whose command has no mnemonic form prints as `.cmd` alone (30_encoding.md R68). -/
theorem disassemble_of_no_form {w : CmdWord} (h : mnemonicForm (decode w) = none) : disassemble w = printRaw w := by
  simp [disassemble, h]

theorem disassemble_of_canonical {w : CmdWord} {form : List Char} (hform : mnemonicForm (decode w) = some form)
    (hcanonical : (decode w).canonical = true) : disassemble w = form := by
  simp [disassemble, hform, hcanonical]

theorem disassemble_of_not_canonical {w : CmdWord} {form : List Char} (hform : mnemonicForm (decode w) = some form)
    (hcanonical : (decode w).canonical = false) :
    disassemble w = printRaw w ++ [' ', ';', ' '] ++ form ++ ignoredFieldNonzero := by
  simp [disassemble, hform, hcanonical]

/-- Disassembling and then assembling gives the word back (30_encoding.md R69). -/
theorem assembleLine_disassemble (w : CmdWord) : assembleLine (disassemble w) = .ok (some w) := by
  cases hform : mnemonicForm (decode w) with
  | none => rw [disassemble_of_no_form hform, assembleLine_printRaw]
  | some form =>
    cases hcanonical : (decode w).canonical with
    | true => rw [disassemble_of_canonical hform hcanonical, assembleLine_mnemonicForm hform hcanonical, encode_decode]
    | false =>
      have hcomment : commandText (disassemble w) = commandText (printRaw w) := by
        calc commandText (disassemble w)
            = commandText ((printRaw w ++ [' ']) ++ ';' :: (' ' :: form ++ ignoredFieldNonzero)) := by
              rw [disassemble_of_not_canonical hform hcanonical]
              simp
          _ = commandText (printRaw w ++ [' ']) := commandText_comment _ _
          _ = commandText (printRaw w) := commandText_append_right allSpace_blank _
      rw [assembleLine_congr hcomment, assembleLine_printRaw]

/-- Only the directive `.cmd` gives a raw word. -/
theorem sourceOf_ne_raw {m : Mnemonic} (hm : m ≠ .cmd) {immediates : List Nat} {t : Source}
    (h : sourceOf m immediates = some t) (w : Nat) : t ≠ .raw w := by
  rintro rfl
  unfold sourceOf at h
  split at h <;> simp_all

/-- The assembler writes 0 into the fields that a command ignores (30_encoding.md R69). -/
theorem canonical_sourceWord {t : Source} (h : ∀ w, t ≠ .raw w) : (decode (sourceWord t)).canonical = true := by
  cases t with
  | raw w => exact absurd rfl (h w)
  | gfmul x y => simp [sourceWord, Instr.canonical, zext16_high]
  | sub v | subi v | mix v | mixi v | shr v | keyexp k | ark v k | dec v k => simp [sourceWord, Instr.canonical]

theorem assemble_eq_ok {t : Source} {w : CmdWord} (h : assemble t = .ok w) : w = sourceWord t := by
  unfold assemble at h
  split at h
  next => exact (Except.ok.inj h).symm
  next => cases h

/-- Settles O5, from the round trip, the canonical words of the assembler and the branch of the comment. -/
theorem disassemblyAssemblesBack : Obligations.DisassemblyAssemblesBack := by
  unfold Obligations.DisassemblyAssemblesBack
  refine ⟨assembleLine_disassemble, ?_, fun w form => disassemble_of_not_canonical⟩
  intro m immediates t w hm hsource hassemble
  rw [assemble_eq_ok hassemble]
  exact canonical_sourceWord (sourceOf_ne_raw hm hsource)

end Sys2Proof.Machine
end

section
/-! PROOF. Substitution acts nibble by nibble through the selected table, so that the two directions undo each other,
and SUB and SUBI answer with it (the family of 40_substitution.md). -/

namespace Sys2Proof.Machine

/-- A command whose outcome is a success answers with it (10_state.md R27). -/
theorem exec_of_outcomeOf_ok {i : Instr} {r0 r1 : Block} (h : outcomeOf Config.hardware i = .ok r0 r1) (s : State) :
    exec i s = .next (respondOk r0 r1 s) := by
  rw [exec_eq_respond, h, respond]

/-- SUB answers the forward substitution (40_substitution.md R101). -/
theorem exec_sub (a b : Block) (s : State) :
    exec (.sub a b) s = .next (respondOk (substitute Config.hardware a false) 0x0000 s) :=
  exec_of_outcomeOf_ok rfl s

/-- SUBI answers the inverse substitution (40_substitution.md R102). -/
theorem exec_subi (a b : Block) (s : State) :
    exec (.subi a b) s = .next (respondOk (substitute Config.hardware a true) 0x0000 s) :=
  exec_of_outcomeOf_ok rfl s

/-- The table that `useInverse` selects (40_substitution.md R100). -/
def sboxTable (cfg : Config) (useInverse : Bool) : Nibble → Nibble :=
  if useInverse then sboxInvNib cfg else sboxNib cfg

@[simp] theorem sboxTable_false (cfg : Config) : sboxTable cfg false = sboxNib cfg := rfl

@[simp] theorem sboxTable_true (cfg : Config) : sboxTable cfg true = sboxInvNib cfg := rfl

/-- Each of the two tables undoes the other (10_state.md R22). -/
theorem sboxTable_not_sboxTable (cfg : Config) (u : Bool) (n : Nibble) :
    sboxTable cfg (!u) (sboxTable cfg u n) = n := by
  cases u with
  | false => exact sboxInvNib_sboxNib cfg n
  | true => exact sboxNib_sboxInvNib cfg n

/-- Substituting an assembled block looks up each of its nibbles (40_substitution.md R100). -/
theorem substitute_asm (cfg : Config) (m0 m1 m2 m3 : Nibble) (u : Bool) :
    substitute cfg (asm m0 m1 m2 m3) u =
      asm (sboxTable cfg u m0) (sboxTable cfg u m1) (sboxTable cfg u m2) (sboxTable cfg u m3) := by
  simp [substitute, sboxTable]

/-- Output nibble `i` is the selected table's entry at input nibble `i` (40_substitution.md R104). -/
theorem nib_substitute (cfg : Config) (b : Block) (u : Bool) (i : Fin 4) :
    nib (substitute cfg b u) i = sboxTable cfg u (nib b i) := by
  conv_lhs => rw [← asm_nib b, substitute_asm]
  match i with
  | 0 => exact nib_asm_zero ..
  | 1 => exact nib_asm_one ..
  | 2 => exact nib_asm_two ..
  | 3 => exact nib_asm_three ..

/-- Substitution in the other direction gives the block back (40_substitution.md R103). -/
theorem substitute_not_substitute (cfg : Config) (b : Block) (u : Bool) :
    substitute cfg (substitute cfg b u) (!u) = b :=
  block_ext_nib fun i => by rw [nib_substitute, nib_substitute, sboxTable_not_sboxTable]

/-- Settles O23: the functions undo each other nibble by nibble, and the second command reads what the first one
answered on `r0`. -/
theorem substitutionRoundTrips : Obligations.SubstitutionRoundTrips := by
  unfold Obligations.SubstitutionRoundTrips
  have hundo (cfg : Config) (b : Block) : substitute cfg (substitute cfg b false) true = b :=
    substitute_not_substitute cfg b false
  have hredo (cfg : Config) (b : Block) : substitute cfg (substitute cfg b true) false = b :=
    substitute_not_substitute cfg b true
  refine ⟨fun cfg b => ⟨hundo cfg b, hredo cfg b⟩, fun a b b' s => ⟨?_, ?_⟩⟩
  · exact ⟨_, _, exec_sub a b s, exec_subi _ b' _, hundo _ a⟩
  · exact ⟨_, _, exec_subi a b s, exec_sub _ b' _, hredo _ a⟩

/-- The block of four zero nibbles, the corner case of R101 and R102 (40_substitution.md). -/
theorem substitute_zero (cfg : Config) (u : Bool) :
    substitute cfg 0x0000 u = asm (sboxTable cfg u 0) (sboxTable cfg u 0) (sboxTable cfg u 0) (sboxTable cfg u 0) :=
  substitute_asm cfg 0 0 0 0 u

/-- The block whose nibbles are their own places, the example of R101 and R102 (40_substitution.md). -/
theorem substitute_0123 (cfg : Config) (u : Bool) :
    substitute cfg 0x0123 u = asm (sboxTable cfg u 0) (sboxTable cfg u 1) (sboxTable cfg u 2) (sboxTable cfg u 3) :=
  substitute_asm cfg 0 1 2 3 u

/-- Equal input nibbles give equal output nibbles (40_substitution.md R101). -/
theorem nib_substitute_congr (cfg : Config) {a : Block} (u : Bool) {i j : Fin 4} (h : nib a i = nib a j) :
    nib (substitute cfg a u) i = nib (substitute cfg a u) j := by
  rw [nib_substitute, nib_substitute, h]

/-- Settles O20: the row of opcode 0, the answer of SUB, and the forward table at the nibbles of the named blocks. -/
theorem subAnswers : Obligations.SubAnswers := by
  unfold Obligations.SubAnswers
  refine ⟨decode_cmdWord 0x0, exec_sub, fun cfg => substitute_zero cfg false,
    fun cfg a i j h => nib_substitute_congr cfg false h, fun cfg => substitute_0123 cfg false, ?_⟩
  calc substitute Config.candidate 0x0123 false
      = asm 0x9 0x4 0xA 0xB := substitute_0123 Config.candidate false
    _ = 0x94AB := by decide

/-- Settles O21: the row of opcode 1, the answer of SUBI, and the inverse table at the nibbles of the named blocks. -/
theorem subiAnswers : Obligations.SubiAnswers := by
  unfold Obligations.SubiAnswers
  refine ⟨decode_cmdWord 0x1, exec_subi, fun cfg => substitute_zero cfg true,
    fun cfg => substitute_0123 cfg true, ?_⟩
  calc substitute Config.candidate 0x0123 true
      = asm 0xA 0x5 0x9 0xB := substitute_0123 Config.candidate true
    _ = 0xA59B := by decide

/-- Settles O22, through the table that the direction selects. -/
theorem substitutionActsNibbleByNibble : Obligations.SubstitutionActsNibbleByNibble := by
  unfold Obligations.SubstitutionActsNibbleByNibble
  exact nib_substitute

end Sys2Proof.Machine
end

section
/-! PROOF. ShiftRow exchanges nibbles 0 and 2, so that it undoes itself and keeps the blocks where the two are equal,
and SHR answers with it (the family of 41_shiftrow.md). -/

namespace Sys2Proof.Machine

/-- SHR answers the shifted block (41_shiftrow.md R121). -/
theorem exec_shr (a b : Block) (s : State) :
    exec (.shr a b) s = .next (respondOk (shiftRow a) 0x0000 s) :=
  exec_of_outcomeOf_ok rfl s

/-- ShiftRow exchanges nibbles 0 and 2 of an assembled block (41_shiftrow.md R120). -/
@[simp] theorem shiftRow_asm (m0 m1 m2 m3 : Nibble) : shiftRow (asm m0 m1 m2 m3) = asm m2 m1 m0 m3 := by
  simp [shiftRow]

/-- Output nibble `i` is the input nibble at the place that the exchange of 0 and 2 gives (41_shiftrow.md R120). -/
theorem nib_shiftRow (b : Block) (i : Fin 4) : nib (shiftRow b) i = nib b (Equiv.swap 0 2 i) := by
  match i with
  | 0 => exact nib_asm_zero ..
  | 1 => exact nib_asm_one ..
  | 2 => exact nib_asm_two ..
  | 3 => exact nib_asm_three ..

/-- ShiftRow undoes itself, since the exchange of two places does (41_shiftrow.md R122). -/
@[simp] theorem shiftRow_shiftRow (b : Block) : shiftRow (shiftRow b) = b :=
  block_ext_nib fun i => by rw [nib_shiftRow, nib_shiftRow, Equiv.swap_apply_self]

/-- Settles O26: the second command reads on `rsp_r0` what the first one answered. -/
theorem shiftRowIsAnInvolution : Obligations.ShiftRowIsAnInvolution := by
  unfold Obligations.ShiftRowIsAnInvolution
  exact ⟨shiftRow_shiftRow, fun a b b' s => ⟨_, _, exec_shr a b s, exec_shr _ b' _, shiftRow_shiftRow a⟩⟩

/-- ShiftRow keeps a block exactly if the two exchanged nibbles are equal (41_shiftrow.md R121). -/
theorem shiftRow_eq_self_iff (b : Block) : shiftRow b = b ↔ nib b 0 = nib b 2 := by
  constructor
  · intro h
    calc nib b 0 = nib (shiftRow b) 2 := (nib_shiftRow b 2).symm
      _ = nib b 2 := by rw [h]
  · intro h
    calc shiftRow b = asm (nib b 2) (nib b 1) (nib b 0) (nib b 3) := rfl
      _ = asm (nib b 0) (nib b 1) (nib b 2) (nib b 3) := by rw [h]
      _ = b := asm_nib b

/-- A block that ShiftRow keeps is given by three free nibbles: the one at the places 0 and 2, and those at 1 and 3. -/
def shiftRowFixedEquiv : { b : Block // shiftRow b = b } ≃ Nibble × Nibble × Nibble where
  toFun b := (nib b.1 0, nib b.1 1, nib b.1 3)
  invFun m := ⟨asm m.1 m.2.1 m.1 m.2.2, shiftRow_asm ..⟩
  left_inv := fun ⟨b, hb⟩ => Subtype.ext <|
    calc asm (nib b 0) (nib b 1) (nib b 0) (nib b 3)
        = asm (nib b 0) (nib b 1) (nib b 2) (nib b 3) := by rw [(shiftRow_eq_self_iff b).mp hb]
      _ = b := asm_nib b
  right_inv m := by simp

theorem card_nibble : Nat.card Nibble = 16 := Nat.card_eq_of_equiv_fin BitVec.equivFin.toEquiv

/-- The fixed points of ShiftRow are counted by their three free nibbles (41_shiftrow.md R121). -/
theorem card_shiftRow_fixed : Nat.card { b : Block // shiftRow b = b } = 4096 :=
  calc Nat.card { b : Block // shiftRow b = b }
      = Nat.card (Nibble × Nibble × Nibble) := Nat.card_congr shiftRowFixedEquiv
    _ = 16 * (16 * 16) := by rw [Nat.card_prod, Nat.card_prod, card_nibble]

/-- Settles O25, by the two exchanged nibbles and the three that stay free when those are equal. -/
theorem shiftRowFixedPoints : Obligations.ShiftRowFixedPoints := by
  unfold Obligations.ShiftRowFixedPoints
  exact ⟨shiftRow_eq_self_iff, card_shiftRow_fixed⟩

/-- Settles O24: the row of opcode 4, the two forms of ShiftRow, which write the same nibbles, and the answer of SHR. -/
theorem shrAnswers : Obligations.ShrAnswers := by
  unfold Obligations.ShrAnswers
  exact ⟨decode_cmdWord 0x4, fun b => ⟨rfl, rfl⟩, exec_shr, shiftRow_asm 0x1 0x2 0x3 0x4⟩

end Sys2Proof.Machine
end

section
/-! PROOF. `gfMul` is the product of GF(2^4): nibbles stand for elements of GF(2)[x]/(x^4+x+1), one loop iteration
keeps the element that the loop stands for, and so the laws of the multiplier are those of the ring
(42_mixcolumns.md R140, R141). -/

namespace Sys2Proof.Machine

open Polynomial

/-! ### Words as polynomials over GF(2) -/

/-- The polynomial whose coefficients are the bits of a word. -/
noncomputable def polyOf {w : Nat} (n : BitVec w) : (ZMod 2)[X] := ∑ i : Fin w, if n[i] then X ^ i.val else 0

theorem polyOf_zero (w : Nat) : polyOf (0 : BitVec w) = 0 := by simp [polyOf]

/-- Where a term is its own negative, XOR selects the sum of what its two bits select. -/
theorem ite_xor_eq_add (x y : Bool) (p : (ZMod 2)[X]) :
    (if x ^^ y then p else 0) = (if x then p else 0) + (if y then p else 0) := by
  cases y with
  | false => simp
  | true =>
    cases x with
    | false => simp
    | true => exact (CharTwo.add_self_eq_zero p).symm

/-- Addition of polynomials over GF(2) is XOR of their words. -/
theorem polyOf_xor {w : Nat} (n m : BitVec w) : polyOf (n ^^^ m) = polyOf n + polyOf m := by
  rw [polyOf, polyOf, polyOf, ← Finset.sum_add_distrib]
  refine Finset.sum_congr rfl fun i _ => ?_
  rw [← ite_xor_eq_add, Fin.getElem_fin, BitVec.getElem_xor]
  rfl

theorem polyOf_eq_sum_C {w : Nat} (n : BitVec w) :
    polyOf n = ∑ i : Fin w, C (if n[i] then 1 else 0) * X ^ i.val :=
  Finset.sum_congr rfl fun i _ => by split <;> simp

theorem degree_polyOf_lt {w : Nat} (n : BitVec w) : (polyOf n).degree < w := by
  rw [polyOf_eq_sum_C]
  exact degree_sum_fin_lt _

theorem coeff_polyOf {w : Nat} (n : BitVec w) (i : Fin w) : (polyOf n).coeff i = if n[i] then 1 else 0 := by
  rw [polyOf_eq_sum_C, finsetSum_coeff]
  simp only [coeff_C_mul_X_pow, Fin.val_inj]
  exact Fintype.sum_ite_eq i _

theorem eq_zero_of_polyOf_eq_zero {w : Nat} {n : BitVec w} (h : polyOf n = 0) : n = 0 := by
  refine BitVec.eq_of_getElem_eq fun i hi => ?_
  have hcoeff := coeff_polyOf n ⟨i, hi⟩
  rw [h] at hcoeff
  simpa using hcoeff

/-- A word is its lowest bit and `X` times the bits above it. -/
theorem polyOf_eq_lowest_bit_add (n : Nibble) :
    polyOf n = (if n[0] then (1 : (ZMod 2)[X]) else 0) + X * polyOf (n >>> 1) := by
  simp [polyOf, Fin.sum_univ_four, mul_add, ← sq, ← pow_succ', ← add_assoc]

theorem polyOf_shiftLeft {n : BitVec 5} (h : n[4] = false) : polyOf (n <<< 1) = X * polyOf n := by
  simp [polyOf, Fin.sum_univ_five, h, mul_add, ← sq, ← pow_succ']

theorem polyOf_low_nibble {n : BitVec 5} (h : n[4] = false) : polyOf (n.extractLsb' 0 4) = polyOf n := by
  simp [polyOf, Fin.sum_univ_five, Fin.sum_univ_four, h]

theorem polyOf_setWidth (n : Nibble) : polyOf (n.setWidth 5) = polyOf n := by
  simp [polyOf, Fin.sum_univ_five, Fin.sum_univ_four]

theorem polyOf_one : polyOf (1 : Nibble) = 1 := by
  simp [polyOf]

theorem polyOf_POLY : polyOf POLY = X ^ 4 + X + 1 := by
  simp [polyOf, Fin.sum_univ_five, POLY]
  ring

/-! ### Nibbles as elements of GF(2)[x]/(x^4+x+1) -/

/-- The modulus of the multiplier (10_state.md R25). -/
noncomputable def modulus : (ZMod 2)[X] := X ^ 4 + X + 1

theorem monic_modulus : modulus.Monic := by
  rw [modulus, add_assoc]
  exact monic_X_pow_add (by compute_degree!)

theorem degree_modulus : modulus.degree = 4 := by
  unfold modulus
  compute_degree!

/-- The element that a word stands for: its polynomial modulo x^4+x+1. -/
noncomputable def elementOf {w : Nat} (n : BitVec w) : AdjoinRoot modulus := AdjoinRoot.mk modulus (polyOf n)

theorem elementOf_xor {w : Nat} (n m : BitVec w) : elementOf (n ^^^ m) = elementOf n + elementOf m := by
  rw [elementOf, polyOf_xor, map_add, elementOf, elementOf]

theorem elementOf_zero (w : Nat) : elementOf (0 : BitVec w) = 0 := by
  rw [elementOf, polyOf_zero, map_zero]

theorem elementOf_one : elementOf (1 : Nibble) = 1 := by
  rw [elementOf, polyOf_one, map_one]

theorem elementOf_POLY : elementOf POLY = 0 := by
  rw [elementOf, polyOf_POLY, ← modulus, AdjoinRoot.mk_self]

/-- Different nibbles stand for different elements, the modulus being of degree 4. -/
theorem elementOf_injective : Function.Injective (elementOf : Nibble → AdjoinRoot modulus) := by
  intro n m h
  have hzero : elementOf (n ^^^ m) = 0 := by
    rw [elementOf_xor, h, ← elementOf_xor, BitVec.xor_self]
    exact elementOf_zero 4
  have hdvd : modulus ∣ polyOf (n ^^^ m) := AdjoinRoot.mk_eq_zero.mp hzero
  have hdegree : (polyOf (n ^^^ m)).degree < modulus.degree := degree_modulus ▸ degree_polyOf_lt _
  exact BitVec.xor_eq_zero_iff.mp
    (eq_zero_of_polyOf_eq_zero (eq_zero_of_dvd_of_degree_lt hdvd hdegree))

/-! ### The loop of the multiplier -/

/-- The product that a loop still has to reach: what is accumulated and what is left to multiply. -/
noncomputable def GfLoop.element (l : GfLoop) : AdjoinRoot modulus := elementOf l.p + elementOf l.aa * elementOf l.bb

@[simp] theorem gfIteration_bb (l : GfLoop) : (gfIteration l).bb = l.bb >>> 1 := rfl

/-- Bit 4 of the multiplicand is set only transiently (42_mixcolumns.md R140). -/
@[simp] theorem gfIteration_aa_bit4 (l : GfLoop) : (gfIteration l).aa[4] = false := by
  cases h : (l.aa <<< 1)[4] with
  | false => simp [gfIteration, h]
  | true => simp [gfIteration, h, POLY]

/-- The accumulator takes up the multiplicand if the multiplier's lowest bit is set. -/
theorem elementOf_gfIteration_p {l : GfLoop} (h : l.aa[4] = false) :
    elementOf (gfIteration l).p = elementOf l.p + elementOf l.aa * (if l.bb[0] then 1 else 0) := by
  have hlow : elementOf (l.aa.extractLsb' 0 4) = elementOf l.aa := by rw [elementOf, polyOf_low_nibble h, elementOf]
  cases hbit : l.bb[0] <;> simp [gfIteration, hbit, elementOf_xor, hlow]

/-- The multiplicand is multiplied by x and reduced. -/
theorem elementOf_gfIteration_aa {l : GfLoop} (h : l.aa[4] = false) :
    elementOf (gfIteration l).aa = AdjoinRoot.root modulus * elementOf l.aa := by
  have hshift : elementOf (l.aa <<< 1) = AdjoinRoot.root modulus * elementOf l.aa := by
    rw [elementOf, polyOf_shiftLeft h, map_mul, AdjoinRoot.mk_X, elementOf]
  rw [← hshift, gfIteration]
  cases (l.aa <<< 1)[4] <;> simp [elementOf_xor, elementOf_POLY]

/-- The multiplier is its lowest bit and x times the bits above it. -/
theorem elementOf_gfIteration_bb (l : GfLoop) :
    elementOf l.bb = (if l.bb[0] then 1 else 0) + AdjoinRoot.root modulus * elementOf (gfIteration l).bb := by
  rw [elementOf, polyOf_eq_lowest_bit_add, map_add, map_mul, AdjoinRoot.mk_X, gfIteration_bb, elementOf]
  split <;> simp

/-- One iteration keeps the product that the loop is to reach. -/
theorem element_gfIteration {l : GfLoop} (h : l.aa[4] = false) : (gfIteration l).element = l.element := by
  rw [GfLoop.element, GfLoop.element, elementOf_gfIteration_p h, elementOf_gfIteration_aa h,
    elementOf_gfIteration_bb l]
  ring

/-- The loop before its first iteration (42_mixcolumns.md R140). -/
def gfStart (a b : Nibble) : GfLoop := { p := 0, aa := a.setWidth 5, bb := b }

theorem gfStart_aa_bit4 (a b : Nibble) : (gfStart a b).aa[4] = false := by
  simp [gfStart]

theorem element_gfStart (a b : Nibble) : (gfStart a b).element = elementOf a * elementOf b := by
  have ha : elementOf (a.setWidth 5) = elementOf a := by rw [elementOf, polyOf_setWidth, elementOf]
  calc (gfStart a b).element
      = elementOf (0 : Nibble) + elementOf (a.setWidth 5) * elementOf b := rfl
    _ = elementOf a * elementOf b := by rw [ha, elementOf_zero, zero_add]

/-- After four iterations no bit of the multiplier is left. -/
theorem gfIteration_four_bb (l : GfLoop) : (gfIteration (gfIteration (gfIteration (gfIteration l)))).bb = 0 := by
  simp only [gfIteration_bb, ← BitVec.shiftRight_add]
  exact BitVec.ushiftRight_eq_zero le_rfl

/-- The multiplier computes the product of the ring (42_mixcolumns.md R140). -/
theorem elementOf_gfMul (a b : Nibble) : elementOf (gfMul a b) = elementOf a * elementOf b := by
  have hend := gfIteration_four_bb (gfStart a b)
  calc elementOf (gfMul a b)
      = (gfIteration (gfIteration (gfIteration (gfIteration (gfStart a b))))).element := by
        rw [GfLoop.element, hend, elementOf_zero, mul_zero, add_zero, gfMul, gfStart]
    _ = (gfStart a b).element := by
        simp only [element_gfIteration, gfIteration_aa_bit4, gfStart_aa_bit4]
    _ = elementOf a * elementOf b := element_gfStart a b

/-- Settles O27: divisibility by the modulus is equality in the ring, where `elementOf_gfMul` says it. -/
theorem gfMulIsTheFieldProduct : Obligations.GfMulIsTheFieldProduct := by
  unfold Obligations.GfMulIsTheFieldProduct
  intro poly a b
  have hproduct : AdjoinRoot.mk modulus (polyOf a * polyOf b) = AdjoinRoot.mk modulus (polyOf (gfMul a b)) := by
    rw [map_mul]
    exact (elementOf_gfMul a b).symm
  exact AdjoinRoot.mk_eq_mk.mp hproduct

/-! ### The laws of the multiplier -/

theorem gfMul_comm (a b : Nibble) : gfMul a b = gfMul b a :=
  elementOf_injective <| by rw [elementOf_gfMul, elementOf_gfMul, mul_comm]

theorem gfMul_assoc (a b c : Nibble) : gfMul (gfMul a b) c = gfMul a (gfMul b c) :=
  elementOf_injective <| by simp only [elementOf_gfMul, mul_assoc]

theorem gfMul_xor (a b c : Nibble) : gfMul a (b ^^^ c) = gfMul a b ^^^ gfMul a c :=
  elementOf_injective <| by simp only [elementOf_gfMul, elementOf_xor, mul_add]

theorem xor_gfMul (b c a : Nibble) : gfMul (b ^^^ c) a = gfMul b a ^^^ gfMul c a := by
  rw [gfMul_comm, gfMul_xor, gfMul_comm a b, gfMul_comm a c]

theorem one_gfMul (x : Nibble) : gfMul 1 x = x :=
  elementOf_injective <| by rw [elementOf_gfMul, elementOf_one, one_mul]

theorem zero_gfMul (x : Nibble) : gfMul 0 x = 0 :=
  elementOf_injective <| by rw [elementOf_gfMul, elementOf_zero, zero_mul]

theorem gfMul_one (x : Nibble) : gfMul x 1 = x := by rw [gfMul_comm, one_gfMul]

theorem gfMul_zero (x : Nibble) : gfMul x 0 = 0 := by rw [gfMul_comm, zero_gfMul]

/-- Every nonzero nibble has an inverse: the 15 products are evaluated (42_mixcolumns.md R141). -/
theorem exists_gfMul_eq_one : ∀ a : Nibble, a ≠ 0 → ∃ b, gfMul a b = 1 := by decide

/-- A nonzero factor can be divided out. -/
theorem gfMul_eq_zero_iff {a : Nibble} (ha : a ≠ 0) (b : Nibble) : gfMul a b = 0 ↔ b = 0 := by
  constructor
  · intro h
    obtain ⟨c, hc⟩ := exists_gfMul_eq_one a ha
    calc b = gfMul (gfMul a c) b := by rw [hc, one_gfMul]
      _ = gfMul c (gfMul a b) := by rw [gfMul_comm a c, gfMul_assoc]
      _ = 0 := by rw [h, gfMul_zero]
  · rintro rfl
    exact gfMul_zero a

/-- Settles O28: the laws of the ring, and the inverses. -/
theorem gfMulLaws : Obligations.GfMulLaws := by
  unfold Obligations.GfMulLaws
  exact ⟨fun x => ⟨one_gfMul x, zero_gfMul x⟩, gfMul_comm, fun a b c => ⟨gfMul_xor a b c, xor_gfMul b c a⟩,
    exists_gfMul_eq_one, by decide, by decide⟩

/-! ### GFMUL -/

/-- GFMUL answers the product of the low nibbles, zero-extended (42_mixcolumns.md R142). -/
theorem exec_gfmul (a b : Block) (s : State) :
    exec (.gfmul a b) s = .next (respondOk (zext16 (gfMul (gfOperand a) (gfOperand b))) 0x0000 s) :=
  exec_of_outcomeOf_ok rfl s

/-- GFMUL shows on `r0` the product of the low nibbles. -/
theorem exec_gfmul_r0 {a b r0 : Block} (h : zext16 (gfMul (gfOperand a) (gfOperand b)) = r0) (s : State) :
    ∃ t, exec (.gfmul a b) s = .next t ∧ t.rspR0 = r0 :=
  ⟨_, exec_gfmul a b s, h⟩

/-- Settles O29: the row of opcode 8, the answer of GFMUL, and the products of the named operands. -/
theorem gfmulAnswers : Obligations.GfmulAnswers := by
  unfold Obligations.GfmulAnswers
  have hzero : gfOperand 0 = 0 := by decide
  have hone : gfOperand 1 = 1 := by decide
  refine ⟨decode_cmdWord 0x8, exec_gfmul, fun x s => ⟨?_, ?_, ?_, ?_⟩, fun s => ?_⟩
  · exact exec_gfmul_r0 (by rw [hzero, zero_gfMul]; rfl) s
  · exact exec_gfmul_r0 (by rw [hzero, gfMul_zero]; rfl) s
  · exact exec_gfmul_r0 (by rw [hone, one_gfMul, gfOperand_zext16]) s
  · exact exec_gfmul_r0 (by rw [hone, gfMul_one, gfOperand_zext16]) s
  · obtain ⟨t1, h1, hr1⟩ := exec_gfmul_r0 (a := 0x4) (b := 0x4) (r0 := 0x0003) (by decide) s
    obtain ⟨t2, h2, hr2⟩ := exec_gfmul_r0 (a := 0xF) (b := 0xF) (r0 := 0x000A) (by decide) s
    obtain ⟨t3, h3, hr3⟩ := exec_gfmul_r0 (a := 0xFFF4) (b := 0x0014) (r0 := 0x0003) (by decide) s
    obtain ⟨t4, h4, hr4⟩ := exec_gfmul_r0 (a := 0x9) (b := 0x2) (r0 := 0x0001) (by decide) s
    exact ⟨t1, t2, t3, t4, h1, hr1, h2, hr2, h3, hr3, h4, hr4⟩

end Sys2Proof.Machine
end

section
/-! PROOF. MixColumns multiplies each column pair by a matrix of the form [[p,q],[q,p]]; its two matrices are
inverse over GF(2^4), and MIX and MIXI answer with it (42_mixcolumns.md R143 to R147). -/

namespace Sys2Proof.Machine

/-- The entry of the selected matrix on its diagonal (42_mixcolumns.md R143). -/
def mixDiagonal (u : Bool) : Nibble := if u then 9 else 1

/-- The entry of the selected matrix off its diagonal (42_mixcolumns.md R143). -/
def mixOffDiagonal (u : Bool) : Nibble := if u then 2 else 4

/-- The output nibble at the place of `x` in a column pair whose other nibble is `y`. -/
def mixWith (u : Bool) (x y : Nibble) : Nibble := gfMul (mixDiagonal u) x ^^^ gfMul (mixOffDiagonal u) y

@[simp] theorem mixWith_false (x y : Nibble) : mixWith false x y = x ^^^ gfMul 4 y :=
  congrArg (· ^^^ gfMul 4 y) (one_gfMul x)

theorem mixWith_zero (u : Bool) : mixWith u 0 0 = 0 := by
  rw [mixWith, gfMul_zero, gfMul_zero]
  rfl

/-- Settles O30: the entries of the two matrices are read off. -/
theorem mixColumnsEquations : Obligations.MixColumnsEquations := by
  unfold Obligations.MixColumnsEquations
  intro b u
  cases u with
  | false => rfl
  | true => rfl

/-- Each output nibble mixes the input nibble at its place with the other one of the pair. -/
theorem mixColumns_eq_asm (b : Block) (u : Bool) :
    mixColumns b u = asm (mixWith u (nib b 0) (nib b 1)) (mixWith u (nib b 1) (nib b 0))
      (mixWith u (nib b 2) (nib b 3)) (mixWith u (nib b 3) (nib b 2)) := by
  have hswap (x y : Nibble) : gfMul (mixOffDiagonal u) x ^^^ gfMul (mixDiagonal u) y = mixWith u y x :=
    BitVec.xor_comm _ _
  rw [← hswap (nib b 0), ← hswap (nib b 2)]
  exact mixColumnsEquations b u

/-- The nibble that shares a column pair with nibble `i` (42_mixcolumns.md R143). -/
def pairOther (i : Fin 4) : Fin 4 :=
  match i with
  | 0 => 1
  | 1 => 0
  | 2 => 3
  | 3 => 2

@[simp] theorem pairOther_pairOther (i : Fin 4) : pairOther (pairOther i) = i := by
  revert i
  decide

/-- Output nibble `i` is given by the input nibbles of its column pair alone (42_mixcolumns.md R146). -/
theorem nib_mixColumns (b : Block) (u : Bool) (i : Fin 4) :
    nib (mixColumns b u) i = mixWith u (nib b i) (nib b (pairOther i)) := by
  rw [mixColumns_eq_asm]
  match i with
  | 0 => exact nib_asm_zero ..
  | 1 => exact nib_asm_one ..
  | 2 => exact nib_asm_two ..
  | 3 => exact nib_asm_three ..

/-- Settles O33, by the one equation of an output nibble. -/
theorem mixColumnsActsPairByPair : Obligations.MixColumnsActsPairByPair := by
  unfold Obligations.MixColumnsActsPairByPair
  intro b c u
  have hpair {i : Fin 4} (h : nib b i = nib c i) (hother : nib b (pairOther i) = nib c (pairOther i)) :
      nib (mixColumns b u) i = nib (mixColumns c u) i := by
    rw [nib_mixColumns, nib_mixColumns, h, hother]
  exact ⟨fun h0 h1 => ⟨hpair h0 h1, hpair h1 h0⟩, fun h2 h3 => ⟨hpair h2 h3, hpair h3 h2⟩⟩

/-! ### The two matrices are inverse -/

/-- The diagonal of the product of the two matrices (42_mixcolumns.md R147). -/
theorem mix_product_diagonal (u : Bool) :
    gfMul (mixDiagonal (!u)) (mixDiagonal u) ^^^ gfMul (mixOffDiagonal (!u)) (mixOffDiagonal u) = 1 := by
  revert u
  decide

/-- The product of the two matrices off its diagonal (42_mixcolumns.md R147). -/
theorem mix_product_offDiagonal (u : Bool) :
    gfMul (mixDiagonal (!u)) (mixOffDiagonal u) ^^^ gfMul (mixOffDiagonal (!u)) (mixDiagonal u) = 0 := by
  revert u
  decide

theorem elementOf_mixWith (u : Bool) (x y : Nibble) :
    elementOf (mixWith u x y) =
      elementOf (mixDiagonal u) * elementOf x + elementOf (mixOffDiagonal u) * elementOf y := by
  rw [mixWith, elementOf_xor, elementOf_gfMul, elementOf_gfMul]

/-- Mixing a mixed pair in the other direction gives the pair back: the product of the two matrices is the identity. -/
theorem mixWith_not_mixWith (u : Bool) (x y : Nibble) : mixWith (!u) (mixWith u x y) (mixWith u y x) = x := by
  have hdiagonal := congrArg elementOf (mix_product_diagonal u)
  have hoff := congrArg elementOf (mix_product_offDiagonal u)
  rw [elementOf_xor, elementOf_gfMul, elementOf_gfMul, elementOf_one] at hdiagonal
  rw [elementOf_xor, elementOf_gfMul, elementOf_gfMul, elementOf_zero] at hoff
  apply elementOf_injective
  rw [elementOf_mixWith, elementOf_mixWith, elementOf_mixWith]
  linear_combination elementOf x * hdiagonal + elementOf y * hoff

/-- MixColumns in the other direction gives the block back (42_mixcolumns.md R147). -/
theorem mixColumns_not_mixColumns (b : Block) (u : Bool) : mixColumns (mixColumns b u) (!u) = b :=
  block_ext_nib fun i => by
    rw [nib_mixColumns, nib_mixColumns, nib_mixColumns, pairOther_pairOther, mixWith_not_mixWith]

/-! ### MIX and MIXI -/

/-- MIX answers the mixed block (42_mixcolumns.md R144). -/
theorem exec_mix (a b : Block) (s : State) :
    exec (.mix a b) s = .next (respondOk (mixColumns a false) 0x0000 s) :=
  exec_of_outcomeOf_ok rfl s

/-- MIXI answers the inverse-mixed block (42_mixcolumns.md R145). -/
theorem exec_mixi (a b : Block) (s : State) :
    exec (.mixi a b) s = .next (respondOk (mixColumns a true) 0x0000 s) :=
  exec_of_outcomeOf_ok rfl s

/-- Settles O34: the second command reads on `rsp_r0` what the first one answered. -/
theorem mixColumnsRoundTrips : Obligations.MixColumnsRoundTrips := by
  unfold Obligations.MixColumnsRoundTrips
  have hundo (b : Block) : mixColumns (mixColumns b false) true = b := mixColumns_not_mixColumns b false
  have hredo (b : Block) : mixColumns (mixColumns b true) false = b := mixColumns_not_mixColumns b true
  refine ⟨by decide, fun b => ⟨hundo b, hredo b⟩, fun a b b' s => ⟨?_, ?_⟩⟩
  · exact ⟨_, _, exec_mix a b s, exec_mixi _ b' _, hundo a⟩
  · exact ⟨_, _, exec_mixi a b s, exec_mix _ b' _, hredo a⟩

/-- The forward matrix keeps the nibble at `x` exactly if the other one of the pair is 0: 4 is no zero divisor. -/
theorem mixWith_false_eq_self_iff (x y : Nibble) : mixWith false x y = x ↔ y = 0 := by
  rw [mixWith_false, ← gfMul_eq_zero_iff (a := 4) (by decide) y]
  constructor
  · intro h
    calc gfMul 4 y = x ^^^ (x ^^^ gfMul 4 y) := by rw [← BitVec.xor_assoc, BitVec.xor_self, BitVec.zero_xor]
      _ = 0 := by rw [h, BitVec.xor_self]; rfl
  · intro h
    rw [h]
    exact BitVec.xor_zero

theorem nib_zero (i : Fin 4) : nib 0x0000 i = 0 := by
  revert i
  decide

/-- A pair of zeros stays zero in both directions (42_mixcolumns.md R144). -/
theorem nib_mixColumns_eq_zero {b : Block} (u : Bool) {i : Fin 4} (h : nib b i = 0) (hother : nib b (pairOther i) = 0) :
    nib (mixColumns b u) i = 0 := by
  rw [nib_mixColumns, h, hother, mixWith_zero]

theorem mixColumns_zero (u : Bool) : mixColumns 0x0000 u = 0x0000 :=
  block_ext_nib fun i => (nib_mixColumns_eq_zero u (nib_zero i) (nib_zero _)).trans (nib_zero i).symm

/-- MIX keeps the zero block alone: each nibble shares a pair with one that it keeps (R144). -/
theorem mixColumns_false_eq_self_iff (a : Block) : mixColumns a false = a ↔ a = 0x0000 := by
  constructor
  · intro h
    refine block_ext_nib fun i => ?_
    have hkept : mixWith false (nib a (pairOther i)) (nib a i) = nib a (pairOther i) := by
      conv_rhs => rw [← h, nib_mixColumns, pairOther_pairOther]
    rw [nib_zero, (mixWith_false_eq_self_iff _ _).mp hkept]
  · rintro rfl
    exact mixColumns_zero false

/-- Settles O31: the row of opcode 2, the answer of MIX, its fixed points, and the products at the named blocks. -/
theorem mixAnswers : Obligations.MixAnswers := by
  unfold Obligations.MixAnswers
  refine ⟨decode_cmdWord 0x2, exec_mix, mixColumns_false_eq_self_iff, by decide, by decide, by decide,
    fun a => ⟨?_, ?_⟩⟩
  · rintro ⟨h0, h1⟩
    exact ⟨nib_mixColumns_eq_zero false h0 h1, nib_mixColumns_eq_zero false h1 h0⟩
  · rintro ⟨h2, h3⟩
    exact ⟨nib_mixColumns_eq_zero false h2 h3, nib_mixColumns_eq_zero false h3 h2⟩

/-- Settles O32: the row of opcode 3, the answer of MIXI, and the products at the named blocks. -/
theorem mixiAnswers : Obligations.MixiAnswers := by
  unfold Obligations.MixiAnswers
  exact ⟨decode_cmdWord 0x3, exec_mixi, mixColumns_zero true, by decide, by decide, by decide, by decide⟩

end Sys2Proof.Machine
end

section
/-! PROOF. The key expansion word by word, its course from four equal words, which gives the round keys of the zero
key, and KEYEXP's answer of the two round keys (the family of 43_keyschedule.md). -/

namespace Sys2Proof.Machine

/-- The constant of the first round (10_state.md R23). -/
theorem RCON_zero : RCON[(0 : Fin 2)] = 0xE := rfl

/-- The constant of the second round (10_state.md R23). -/
theorem RCON_one : RCON[(1 : Fin 2)] = 0xA := rfl

/-- Settles O35: the four words of each round are read off, the second round from the words of the first. -/
theorem keyExpandEquations : Obligations.KeyExpandEquations := by
  unfold Obligations.KeyExpandEquations
  intro cfg k
  simp only [keyExpand, keyBlock, keyRound, keyWordsOf, RCON_zero, RCON_one]

/-- KEYEXP answers both round keys (43_keyschedule.md R161). -/
theorem exec_keyexp (a b : Block) (s : State) :
    exec (.keyexp a b) s =
      .next (respondOk (keyExpand Config.hardware b).1 (keyExpand Config.hardware b).2 s) :=
  exec_of_outcomeOf_ok rfl s

/-- A round on four equal words `x`: each next word adds `x` to the one before it, so that the new first word `v`
alternates with `x ⊕ v` (43_keyschedule.md R160). -/
theorem keyRound_of_equal_words (cfg : Config) (r : Fin 2) {x v : Nibble} (hv : x ^^^ sboxNib cfg x ^^^ RCON[r] = v) :
    keyRound cfg r ⟨x, x, x, x⟩ = ⟨v, x ^^^ v, v, x ^^^ v⟩ := by
  have hcancel : x ^^^ (x ^^^ v) = v := by rw [← BitVec.xor_assoc, BitVec.xor_self, BitVec.zero_xor]
  simp only [keyRound, hv, hcancel]

/-- The words of the zero key stay equal in the first round, and alternate in the second (43_keyschedule.md R161). -/
theorem keyExpand_zero (cfg : Config) {u v : Nibble} (hu : sboxNib cfg 0 ^^^ 0xE = u)
    (hv : u ^^^ sboxNib cfg u ^^^ 0xA = v) :
    keyExpand cfg 0x0000 = (asm u u u u, asm v (u ^^^ v) v (u ^^^ v)) := by
  have hzero (n : Nibble) : 0 ^^^ n = n := BitVec.zero_xor
  have hround1 : keyRound cfg 0 (keyWordsOf 0x0000) = ⟨u, u, u, u⟩ := by
    have hfirst : 0 ^^^ sboxNib cfg 0 ^^^ RCON[(0 : Fin 2)] = u := by rw [hzero, RCON_zero, hu]
    calc keyRound cfg 0 (keyWordsOf 0x0000)
        = ⟨u, 0 ^^^ u, u, 0 ^^^ u⟩ := keyRound_of_equal_words cfg 0 hfirst
      _ = ⟨u, u, u, u⟩ := by rw [hzero]
  have hround2 : keyRound cfg 1 ⟨u, u, u, u⟩ = ⟨v, u ^^^ v, v, u ^^^ v⟩ := keyRound_of_equal_words cfg 1 hv
  rw [keyExpand, hround1, hround2, keyBlock, keyBlock]

/-- Settles O36: the row of opcode 6, the answer of KEYEXP, and the round keys of the zero key and of the named keys. -/
theorem keyexpAnswers : Obligations.KeyexpAnswers := by
  unfold Obligations.KeyexpAnswers
  exact ⟨decode_cmdWord 0x6, exec_keyexp, fun cfg => keyExpand_zero cfg rfl rfl, by decide, by decide, by decide⟩

end Sys2Proof.Machine
end

section
/-! PROOF. AddRoundKey is the XOR of block and key: ARK answers it, its laws are those of XOR, and adding one key twice
cancels (the family of 44_addroundkey.md). -/

namespace Sys2Proof.Machine

/-- ARK answers the block with the key added (44_addroundkey.md R181). -/
theorem exec_ark (a b : Block) (s : State) :
    exec (.ark a b) s = .next (respondOk (addRoundKey a b) 0x0000 s) :=
  exec_of_outcomeOf_ok rfl s

theorem addRoundKey_eq_xor (b k : Block) : addRoundKey b k = b ^^^ k := rfl

theorem addRoundKey_comm (b k : Block) : addRoundKey b k = addRoundKey k b := BitVec.xor_comm b k

/-- The zero key changes no block (44_addroundkey.md R181). -/
@[simp] theorem addRoundKey_zero (b : Block) : addRoundKey b 0x0000 = b := BitVec.xor_zero

@[simp] theorem addRoundKey_self (b : Block) : addRoundKey b b = 0x0000 := BitVec.xor_self

/-- The key of all ones complements the block (44_addroundkey.md R181). -/
@[simp] theorem addRoundKey_allOnes (b : Block) : addRoundKey b 0xFFFF = ~~~b := BitVec.xor_allOnes

/-- The two copies of the key cancel (44_addroundkey.md R182). -/
@[simp] theorem addRoundKey_addRoundKey (b k : Block) : addRoundKey (addRoundKey b k) k = b := by
  calc addRoundKey (addRoundKey b k) k
      = addRoundKey b (addRoundKey k k) := BitVec.xor_assoc b k k
    _ = b := by rw [addRoundKey_self, addRoundKey_zero]

/-- Settles O37: the row of opcode 5, the answer of ARK, and the laws of XOR at the named keys. -/
theorem arkAnswers : Obligations.ArkAnswers := by
  unfold Obligations.ArkAnswers
  refine ⟨decode_cmdWord 0x5, exec_ark, fun a b => ?_, by decide⟩
  exact ⟨addRoundKey_eq_xor a b, addRoundKey_zero a, addRoundKey_self a, addRoundKey_allOnes a, addRoundKey_comm a b⟩

/-- Settles O38: the second ARK takes as its block what the first one showed on `rsp_r0`. -/
theorem addRoundKeyIsSelfInverse : Obligations.AddRoundKeyIsSelfInverse := by
  unfold Obligations.AddRoundKeyIsSelfInverse
  exact ⟨addRoundKey_addRoundKey, fun b k s => ⟨_, _, exec_ark b k s, exec_ark _ k _, addRoundKey_addRoundKey b k⟩⟩

end Sys2Proof.Machine
end

section
/-! PROOF. Each of the seven stages of decryption is a bijection of the blocks, so decryption under one key is, and DEC
answers with it: its stages issued as commands give the same (the family of 45_decrypt.md). -/

namespace Sys2Proof.Machine

/-- DEC answers the plaintext (45_decrypt.md R201). -/
theorem exec_dec (a b : Block) (s : State) :
    exec (.dec a b) s = .next (respondOk (decrypt Config.hardware a b) 0x0000 s) :=
  exec_of_outcomeOf_ok rfl s

/-- Settles O40: each command reads on `rsp_r0` what the one before it answered, and the round keys from KEYEXP. -/
theorem decIsItsSevenStages : Obligations.DecIsItsSevenStages := by
  unfold Obligations.DecIsItsSevenStages
  refine ⟨fun _ _ _ => rfl, fun c k ignored s => ?_⟩
  exact ⟨_, _, _, _, _, _, _, _, _, exec_keyexp ignored k s, exec_shr c ignored _, exec_ark _ _ _,
    exec_subi _ ignored _, exec_shr _ ignored _, exec_mixi _ ignored _, exec_ark _ _ _, exec_subi _ ignored _,
    exec_dec c k s, rfl⟩

/-! ### Every stage is a bijection -/

/-- A stage with two directions that undo each other is a bijection in either. -/
theorem bijective_of_not_undoes {stage : Block → Bool → Block} (h : ∀ b u, stage (stage b u) (!u) = b) (u : Bool) :
    Function.Bijective (stage · u) := by
  have hback (b : Block) : stage (stage b (!u)) u = b := by simpa using h b (!u)
  exact Function.bijective_iff_has_inverse.mpr ⟨(stage · (!u)), fun b => h b u, hback⟩

theorem substitute_bijective (cfg : Config) (u : Bool) : Function.Bijective (substitute cfg · u) :=
  bijective_of_not_undoes (substitute_not_substitute cfg) u

theorem mixColumns_bijective (u : Bool) : Function.Bijective (mixColumns · u) :=
  bijective_of_not_undoes mixColumns_not_mixColumns u

theorem shiftRow_bijective : Function.Bijective shiftRow :=
  Function.Involutive.bijective shiftRow_shiftRow

theorem addRoundKey_bijective (k : Block) : Function.Bijective (addRoundKey · k) :=
  Function.Involutive.bijective (addRoundKey_addRoundKey · k)

/-- Decryption under one key is ShiftRow, the inverse table after `k2`, ShiftRow and MixColumns, and the inverse table
after `k1`, each a bijection (45_decrypt.md R203). -/
theorem decrypt_bijective (cfg : Config) (k : Block) : Function.Bijective (fun c => decrypt cfg c k) := by
  have hround (key : Block) : Function.Bijective (fun b => substitute cfg (addRoundKey b key) true) :=
    (substitute_bijective cfg true).comp (addRoundKey_bijective key)
  have hdiffuse : Function.Bijective (fun b => mixColumns (shiftRow b) true) :=
    (mixColumns_bijective true).comp shiftRow_bijective
  exact (hround (keyExpand cfg k).1).comp <| hdiffuse.comp <| (hround (keyExpand cfg k).2).comp shiftRow_bijective

/-- What DEC shows on `rsp_r0` is the decrypted block and nothing else (45_decrypt.md R201). -/
theorem exec_dec_rspR0_iff (c k p : Block) (s : State) :
    (∃ t, exec (.dec c k) s = .next t ∧ t.rspR0 = p) ↔ decrypt Config.hardware c k = p := by
  simp [exec_dec]

/-- Settles O41: the ciphertext of a plaintext is its one preimage under decryption, and DEC shows decryption's value. -/
theorem decryptionIsABijection : Obligations.DecryptionIsABijection := by
  unfold Obligations.DecryptionIsABijection
  refine ⟨decrypt_bijective, fun k p s => ?_⟩
  simp only [exec_dec_rspR0_iff]
  exact (decrypt_bijective Config.hardware k).existsUnique p

/-- Settles O39: the row of opcode 7, the answer of DEC, that decryption is one to one, and the named blocks. -/
theorem decAnswers : Obligations.DecAnswers := by
  unfold Obligations.DecAnswers
  exact ⟨decode_cmdWord 0x7, exec_dec, fun cfg _ _ k => (decrypt_bijective cfg k).injective.eq_iff,
    by decide, by decide, by decide, by decide⟩

end Sys2Proof.Machine
end

section
/-! PROOF. The core's one error: the outcome of a reserved opcode, the mark it leaves on the run, and the invariant of
the interface that every step keeps (60_exceptions.md R300, R301, R303, R320). -/

namespace Sys2Proof.Machine

/-! ### What a reserved opcode answers -/

/-- A reserved opcode has the fault of its opcode and operands as its outcome, whatever the tables (60_exceptions.md
R300); the defined opcodes are those of `outcomeOf_of_defined`. -/
theorem outcomeOf_of_reserved (cfg : Config) {i : Instr} (hreserved : ReservedOp i.opcode) :
    outcomeOf cfg i = .fault (.reservedOpcode i.opcode i.a i.b) := by
  cases i with
  | sub a b | subi a b | mix a b | mixi a b | shr a b | ark a b | keyexp a b | dec a b | gfmul a b =>
    exact absurd hreserved (by simp [ReservedOp, Instr.opcode])
  | reserved9 a b | reservedA a b | reservedB a b | reservedC a b | reservedD a b | reservedE a b | reservedF a b => rfl

/-- A command whose outcome is a fault answers with it (60_exceptions.md R300). -/
theorem exec_of_outcomeOf_fault {i : Instr} {f : Fault} (h : outcomeOf Config.hardware i = .fault f) (s : State) :
    exec i s = .next (respondError f s) := by
  rw [exec_eq_respond, h, respond]

/-- Settles O42: each of the seven outcomes is the fault of its word, and the one error entry answers it. -/
theorem reservedOpcodesAnswerAnError : Obligations.ReservedOpcodesAnswerAnError := by
  unfold Obligations.ReservedOpcodesAnswerAnError
  refine ⟨fun _ _ _ => rfl, fun a b s => ⟨Config.freeR0 s.freeCount, Config.freeR1 s.freeCount, s.freeCount + 1, ?_⟩⟩
  and_intros <;> exact exec_of_outcomeOf_fault rfl s

/-! ### What a step does to the fault mark -/

/-- The step on a presented word answers it and leaves the commands behind it (20_memory.md R48). -/
theorem step_present (s : State) (w : CmdWord) :
    step (s.present w) = .next (respond (outcomeOf Config.hardware (decode w)) s) :=
  step_of_commands_cons (present_commands w s)

/-- Settles O13: `op` decides between a success and the fault of the word, and the answer of either is the response. -/
theorem onlyReservedOpcodesFail : Obligations.OnlyReservedOpcodesFail := by
  unfold Obligations.OnlyReservedOpcodesFail
  intro s w
  refine ⟨_, step_present s w, fun hdefined => ?_, fun hreserved => ?_⟩
  · obtain ⟨r0, r1, houtcome, -, -⟩ :=
      outcomeOf_of_defined Config.hardware (i := decode w) (by rwa [opcode_decode])
    rw [houtcome]
    exact ⟨⟨r0, r1, respondOk_outcomes r0 r1 s⟩, respondOk_rspErr r0 r1 s, respondOk_faultMark r0 r1 s⟩
  · have houtcome := outcomeOf_of_reserved Config.hardware (i := decode w) (by rwa [opcode_decode])
    rw [opcode_decode, a_decode, b_decode] at houtcome
    rw [houtcome]
    exact ⟨respondError_outcomes _ s, respondError_rspErr _ s, respondError_faultMark _ s⟩

/-- Settles O9. -/
theorem idleCoreDoesNothing : Obligations.IdleCoreDoesNothing := by
  unfold Obligations.IdleCoreDoesNothing
  exact fun _ => step_of_commands_nil rfl

/-- All that a step can do: idle, or answer the first command presented. -/
theorem step_cases {s t : State} (h : step s = .next t) :
    (s.commands = [] ∧ t = s) ∨
      ∃ w rest, s.commands = w :: rest ∧
        t = respond (outcomeOf Config.hardware (decode w)) { s with commands := rest } := by
  cases hs : s.commands with
  | nil =>
    rw [step_of_commands_nil hs] at h
    exact .inl ⟨rfl, (Host.Outcome.next.inj h).symm⟩
  | cons w rest =>
    rw [step_of_commands_cons hs] at h
    exact .inr ⟨w, rest, rfl, (Host.Outcome.next.inj h).symm⟩

/-- Every step answers a next state: the machine never stops (log entries 2 and 6). -/
theorem exists_step_next (s : State) : ∃ t, step s = .next t := by
  obtain ⟨t, hstep, -, -⟩ := everyStepAnswersOneCommand s
  exact ⟨t, hstep⟩

theorem run_zero (s : State) : Host.Core.run core 0 s = .next s := rfl

theorem run_succ {s t : State} (h : step s = .next t) (n : Nat) :
    Host.Core.run core (n + 1) s = Host.Core.run core n t := by
  have hcore : core.step s = .next t := h
  simp only [Host.Core.run, hcore]

/-- What every step keeps, a run of any length reaches and keeps. -/
theorem run_keeps {P : State → Prop} (hstep : ∀ s t, P s → step s = .next t → P t) {s : State} (hs : P s) (n : Nat) :
    ∃ t : State, Host.Core.run core n s = .next t ∧ P t := by
  induction n generalizing s with
  | zero => exact ⟨s, run_zero s, hs⟩
  | succ n ih =>
    obtain ⟨u, hu⟩ := exists_step_next s
    rw [run_succ hu]
    exact ih (hstep s u hs hu)

/-- No answer clears the fault mark (60_exceptions.md R300). -/
theorem step_keeps_faultMark (s t : State) (hmark : s.faultMark = true) (h : step s = .next t) :
    t.faultMark = true := by
  obtain ⟨-, rfl⟩ | ⟨w, rest, -, rfl⟩ := step_cases h
  · exact hmark
  · obtain ⟨-, -, -, -, hrespond, -⟩ :=
      respond_cases (outcomeOf Config.hardware (decode w)) { s with commands := rest }
    exact hrespond.trans (by simp [hmark])

/-- Settles O16: the mark is one of the things that every step keeps. -/
theorem faultMarkIsKept : Obligations.FaultMarkIsKept := by
  unfold Obligations.FaultMarkIsKept
  exact fun _ n => run_keeps step_keeps_faultMark rfl n

/-! ### The invariant of the interface -/

/-- A command faults by a reserved opcode or not at all (60_exceptions.md R301, R303). -/
theorem outcomeOf_faultIsReserved (cfg : Config) (i : Instr) : (outcomeOf cfg i).FaultIsReserved := by
  rcases Nat.lt_or_ge 8 i.opcode.toNat with hreserved | hdefined
  · rw [outcomeOf_of_reserved cfg hreserved]
    exact hreserved
  · obtain ⟨r0, r1, houtcome, -, -⟩ := outcomeOf_of_defined cfg hdefined
    rw [houtcome]
    trivial

/-- The invariant does not speak of the commands still to come. -/
theorem inv_with_commands {s : State} (h : s.Inv) (rest : List CmdWord) : State.Inv { s with commands := rest } :=
  ⟨h.mark, h.faults, h.shown⟩

/-- Answering with an outcome keeps the invariant: the mark and the record take up the same outcome, and the ports show
it. -/
theorem respond_keeps_inv {s : State} (h : s.Inv) {o : CmdOutcome} (ho : o.FaultIsReserved) : (respond o s).Inv := by
  obtain ⟨-, -, -, houtcomes, hmark, -⟩ := respond_cases o s
  constructor
  case mark => simp [hmark, h.mark, State.runFailed, houtcomes]
  case faults =>
    rw [houtcomes]
    exact List.forall_mem_append.mpr ⟨h.faults, List.forall_mem_singleton.mpr ho⟩
  case shown => exact fun _ => ⟨o, by rw [houtcomes, List.getLast?_concat], respond_shows o s⟩

/-- Settles O14: an idle step changes nothing, and any other answers with the outcome of its word. -/
theorem stepKeepsInv : Obligations.StepKeepsInv := by
  unfold Obligations.StepKeepsInv
  intro s t hinv hstep
  obtain ⟨-, rfl⟩ | ⟨w, rest, -, rfl⟩ := step_cases hstep
  · exact hinv
  · exact respond_keeps_inv (inv_with_commands hinv rest) (outcomeOf_faultIsReserved Config.hardware (decode w))

end Sys2Proof.Machine
end

section
/-! PROOF. The batch host's tokens: the words of the text between white space (60_exceptions.md R324), and the number
that each of them writes (R321 to R323). -/

namespace Sys2Proof.Machine

/-! ### Words of a text -/

theorem isSpace_eq_false_iff (c : Char) : isSpace c = false ↔ c ∉ spaceTable := by
  rw [← isSpace_iff, Bool.not_eq_true]

/-- The part that a character in front joins is the first one; no part is lost or made. -/
theorem flatten_consFirst (c : Char) (parts : List (List Char)) : (consFirst c parts).flatten = c :: parts.flatten := by
  cases parts <;> rfl

theorem forall_mem_consFirst {P : List Char → Prop} {c : Char} (hnil : P [c]) (hcons : ∀ part, P part → P (c :: part))
    {parts : List (List Char)} (h : ∀ part ∈ parts, P part) : ∀ part ∈ consFirst c parts, P part := by
  cases parts with
  | nil => exact List.forall_mem_singleton.mpr hnil
  | cons first rest =>
    obtain ⟨hfirst, hrest⟩ := List.forall_mem_cons.mp h
    exact List.forall_mem_cons.mpr ⟨hcons first hfirst, hrest⟩

/-- The parts of a text hold none of its separators. -/
theorem splitText_no_separator (separates : Char → Bool) (text : List Char) :
    ∀ part ∈ splitText separates text, ∀ c ∈ part, separates c = false := by
  induction text with
  | nil => simp [splitText]
  | cons c rest ih =>
    rw [splitText]
    split
    next => simpa using ih
    next hc =>
      have hc : separates c = false := Bool.eq_false_of_not_eq_true hc
      refine forall_mem_consFirst ?_ (fun part hpart => ?_) ih
      · exact List.forall_mem_singleton.mpr hc
      · exact List.forall_mem_cons.mpr ⟨hc, hpart⟩

/-- The parts of a text are, together, the text without its separators. -/
theorem flatten_splitText (separates : Char → Bool) (text : List Char) :
    (splitText separates text).flatten = text.filter (fun c => !separates c) := by
  induction text with
  | nil => rfl
  | cons c rest ih =>
    rw [splitText]
    split
    next hc => simp [hc, ih]
    next hc => simp [hc, ih, flatten_consFirst]

/-- A separator in front of a text makes an empty part, which is no token. -/
theorem tokensOf_space_cons {c : Char} (hc : c ∈ spaceTable) (text : List Char) :
    tokensOf (c :: text) = tokensOf text := by
  simp [tokensOf, splitText, (isSpace_iff c).mpr hc]

theorem tokensOf_word {word : List Char} (hne : word ≠ []) (hword : ∀ c ∈ word, isSpace c = false) :
    tokensOf word = [word] := by
  simp [tokensOf, splitText_of_no_separator hword, hne]

theorem tokensOf_word_append {word : List Char} (hne : word ≠ []) (hword : ∀ c ∈ word, isSpace c = false) {c : Char}
    (hc : c ∈ spaceTable) (text : List Char) : tokensOf (word ++ c :: text) = word :: tokensOf text := by
  simp [tokensOf, splitText_append_separator hword ((isSpace_iff c).mpr hc), hne]

theorem mem_tokensOf {token text : List Char} (h : token ∈ tokensOf text) :
    token ≠ [] ∧ ∀ c ∈ token, isSpace c = false := by
  obtain ⟨hpart, hne⟩ := List.mem_filter.mp h
  exact ⟨by simpa using hne, splitText_no_separator isSpace text token hpart⟩

theorem flatten_tokensOf (text : List Char) : (tokensOf text).flatten = text.filter (fun c => !isSpace c) := by
  rw [tokensOf, List.flatten_filter_not_isEmpty, flatten_splitText]

/-- Settles O49, from what cutting does to white space, to a word, and to the text as a whole. -/
theorem tokensAreTheWordsOfTheText : Obligations.TokensAreTheWordsOfTheText := by
  unfold Obligations.TokensAreTheWordsOfTheText
  refine ⟨isSpace_iff, rfl, fun c text hc => tokensOf_space_cons hc text, fun word hne hword => ?_, fun text => ⟨?_, ?_⟩⟩
  · have hspace : ∀ c ∈ word, isSpace c = false := fun c hc => (isSpace_eq_false_iff c).mpr (hword c hc)
    exact ⟨tokensOf_word hne hspace, fun c text hc => tokensOf_word_append hne hspace hc text⟩
  · intro token htoken
    obtain ⟨hne, hspace⟩ := mem_tokensOf htoken
    exact ⟨hne, fun c hc => (isSpace_eq_false_iff c).mp (hspace c hc)⟩
  · have hsame : (fun c => !isSpace c) = fun c => decide (c ∉ spaceTable) := by
      funext c
      simp [← isSpace_iff]
    rw [flatten_tokensOf, hsame]

/-! ### Digits -/

/-- The hexadecimal digits are the characters of the table, with their values (60_exceptions.md R321). -/
theorem hexValue_eq_some_iff (c : Char) (v : Nat) : hexValue c = some v ↔ (c, v) ∈ hexDigitTable := by
  constructor
  · intro h
    have hcode : c.toNat < 103 := by
      by_contra hlarge
      have hnone : hexValue c = none := by
        unfold hexValue
        rw [if_neg (by omega), if_neg (by omega), if_neg (by omega)]
      simp [hnone] at h
    exact forall_char_of_toNat_lt (P := fun c => ∀ v ∈ hexValue c, (c, v) ∈ hexDigitTable) 103 (by decide) c hcode v h
  · exact hexValue_of_mem (c, v)

theorem hexValue_eq_none_iff (c : Char) : hexValue c = none ↔ ∀ v, (c, v) ∉ hexDigitTable := by
  simp [Option.eq_none_iff_forall_ne_some, hexValue_eq_some_iff]

/-- A text of hexadecimal digits alone. -/
def AllHex (token : List Char) : Prop := ∀ c ∈ token, ∃ v, (c, v) ∈ hexDigitTable

theorem allHex_iff (token : List Char) : AllHex token ↔ ∀ c ∈ token, (hexValue c).isSome = true := by
  simp [AllHex, Option.isSome_iff_exists, hexValue_eq_some_iff]

theorem allHex_map_fst {digits : List (Char × Nat)} (h : ∀ d ∈ digits, d ∈ hexDigitTable) :
    AllHex (digits.map Prod.fst) := by
  intro c hc
  obtain ⟨d, hd, rfl⟩ := List.mem_map.mp hc
  exact ⟨d.2, h d hd⟩

/-- The digits of a text of hexadecimal digits, with their values. -/
theorem exists_digits_of_allHex {token : List Char} (h : AllHex token) :
    ∃ digits : List (Char × Nat), (∀ d ∈ digits, d ∈ hexDigitTable) ∧ digits.map Prod.fst = token := by
  induction token with
  | nil => exact ⟨[], by simp, rfl⟩
  | cons c rest ih =>
    obtain ⟨⟨v, hv⟩, hrest⟩ := List.forall_mem_cons.mp h
    obtain ⟨digits, hdigits, rfl⟩ := ih hrest
    exact ⟨(c, v) :: digits, List.forall_mem_cons.mpr ⟨hv, hdigits⟩, rfl⟩

/-! ### Which texts parse -/

/-- A text of digits alone is at most too long (60_exceptions.md R323). -/
theorem parseErrors_of_allHex {token : List Char} (hne : token ≠ []) (h : AllHex token) :
    parseErrors token = if 4 < token.length then [.tokenTooLong] else [] := by
  rw [allHex_iff] at h
  have hfilter : token.filter (fun c => (hexValue c).isSome) = token := List.filter_eq_self.mpr h
  have hany : token.any (fun c => (hexValue c).isNone) = false := by
    rw [List.any_eq_false]
    exact fun c hc => by simp [Option.isSome_iff_ne_none.mp (h c hc)]
  simp [parseErrors, hfilter, hany, hne]

/-- A text with a character that is no digit is malformed, and too long as well if it holds enough digits (log entry
18). -/
theorem parseErrors_of_not_hex {token : List Char} {c : Char} (hc : c ∈ token) (h : ∀ v, (c, v) ∉ hexDigitTable) :
    parseErrors token =
      .malformedHex :: if 4 < (token.filter (fun c => (hexValue c).isSome)).length then [.tokenTooLong] else [] := by
  have hany : token.any (fun c => (hexValue c).isNone) = true :=
    List.any_eq_true.mpr ⟨c, hc, by simp [(hexValue_eq_none_iff c).mpr h]⟩
  simp [parseErrors, hany]

theorem parseErrors_nil : parseErrors [] = [.malformedHex] := rfl

/-- No error applies to a text exactly if it is 1 to 4 digits (60_exceptions.md R321 to R323). -/
theorem parseErrors_eq_nil_iff (token : List Char) :
    parseErrors token = [] ↔ 1 ≤ token.length ∧ token.length ≤ 4 ∧ AllHex token := by
  by_cases hhex : AllHex token
  case neg =>
    obtain ⟨c, hc, hnone⟩ : ∃ c ∈ token, ∀ v, (c, v) ∉ hexDigitTable := by simpa [AllHex] using hhex
    simp [parseErrors_of_not_hex hc hnone, hhex]
  case pos =>
    cases token with
    | nil => simp [parseErrors_nil]
    | cons c rest => simp [parseErrors_of_allHex (List.cons_ne_nil c rest) hhex, hhex]

/-- `parseToken` meets the first of the errors that apply. -/
theorem parseToken_of_error {token : List Char} {e : HostError} {rest : List HostError}
    (h : parseErrors token = e :: rest) : parseToken token = .error e := by
  simp [parseToken, h]

/-- One to four digits parse to the number they write (60_exceptions.md R321). -/
theorem parseToken_map_fst {digits : List (Char × Nat)} (h : ∀ d ∈ digits, d ∈ hexDigitTable) (hpos : 1 ≤ digits.length)
    (hle : digits.length ≤ 4) : parseToken (digits.map Prod.fst) = .ok (BitVec.ofNat 16 (digitsValue 16 digits)) := by
  have herrors : parseErrors (digits.map Prod.fst) = [] :=
    (parseErrors_eq_nil_iff _).mpr ⟨by simpa using hpos, by simpa using hle, allHex_map_fst h⟩
  have hread : readDigits hexValue 16 0 (digits.map Prod.fst) = some (digitsValue 16 digits) :=
    readDigits_map_fst (fun d hd => hexValue_of_mem d (h d hd)) 16 0
  simp [parseToken, herrors, hread]

/-- A text parses exactly if no error applies to it. -/
theorem parseToken_isOk_iff (token : List Char) : (∃ b, parseToken token = .ok b) ↔ parseErrors token = [] := by
  cases herrors : parseErrors token with
  | cons e rest => simp [parseToken_of_error herrors]
  | nil =>
    obtain ⟨hpos, hle, hhex⟩ := (parseErrors_eq_nil_iff token).mp herrors
    obtain ⟨digits, hdigits, rfl⟩ := exists_digits_of_allHex hhex
    rw [List.length_map] at hpos hle
    exact iff_of_true ⟨_, parseToken_map_fst hdigits hpos hle⟩ rfl

/-- Printed nibbles parse to the number they write. -/
theorem parseToken_map_hexDigit {digits : List Nibble} (hpos : 1 ≤ digits.length) (hle : digits.length ≤ 4) :
    parseToken (digits.map hexDigit) =
      .ok (BitVec.ofNat 16 (digits.foldl (fun acc d => acc * 16 + d.toNat) 0)) := by
  have hmem : ∀ d ∈ digits.map nibbleDigit, d ∈ hexDigitTable := by simp [nibbleDigit_mem]
  have hparse := parseToken_map_fst hmem (by simpa using hpos) (by simpa using hle)
  rwa [digitsValue, List.foldl_map, List.map_map] at hparse

/-- A block's printed digits parse to the block (20_memory.md R42). -/
theorem parseToken_blockDigits (b : Block) : parseToken ((blockDigits b).map Prod.fst) = .ok b := by
  have hvalue : digitsValue 16 (blockDigits b) = b.toNat := by simpa [digitsValue] using foldl_blockDigits 0 b
  rw [parseToken_map_fst (blockDigits_mem b) (by simp [blockDigits]) (by simp [blockDigits]), hvalue,
    BitVec.ofNat_toNat, BitVec.setWidth_eq]

/-- A text that is malformed and holds more than 4 digits has both errors (log entry 18). -/
theorem parseErrors_of_both {token digits : List Char} {c : Char} (hc : c ∈ token)
    (hnone : ∀ v, (c, v) ∉ hexDigitTable) (hsub : digits.Sublist token) (hlong : 4 < digits.length)
    (hhex : AllHex digits) : parseErrors token = [.malformedHex, .tokenTooLong] := by
  have hcount : digits.length ≤ (token.filter (fun c => (hexValue c).isSome)).length := by
    calc digits.length
        = (digits.filter (fun c => (hexValue c).isSome)).length := by
          rw [List.filter_eq_self.mpr ((allHex_iff digits).mp hhex)]
      _ ≤ _ := (hsub.filter _).length_le
  rw [parseErrors_of_not_hex hc hnone, if_pos (hlong.trans_le hcount)]

/-- Settles O45: which texts parse is `parseErrors_eq_nil_iff`, and to what is `parseToken_map_fst`. -/
theorem tokensParseAsHexNumbers : Obligations.TokensParseAsHexNumbers := by
  unfold Obligations.TokensParseAsHexNumbers
  refine ⟨hexValue_eq_some_iff, fun token => (parseToken_isOk_iff token).trans (parseErrors_eq_nil_iff token),
    fun _ => parseToken_map_fst, fun _ => parseToken_map_hexDigit, parseToken_blockDigits, ?toolong, ?malformed,
    fun _ _ _ => parseErrors_of_both, by decide, by decide, by decide, by decide⟩
  case toolong =>
    intro token hlong hhex
    have hne : token ≠ [] := List.ne_nil_of_length_pos (by omega)
    exact parseToken_of_error ((parseErrors_of_allHex hne hhex).trans (if_pos hlong))
  case malformed =>
    intro token c hc hnone
    have herrors := parseErrors_of_not_hex hc hnone
    exact ⟨parseToken_of_error herrors, by simp [herrors]⟩

end Sys2Proof.Machine
end

section
/-! PROOF. The batch host: what it does with its tokens and with the core, and which errors it meets (60_exceptions.md
R324 to R331). -/

namespace Sys2Proof.Machine

/-! ### The DECs of the tokens -/

/-- DEC, issued by the host, answers the plaintext (45_decrypt.md R201). -/
theorem step_present_dec (c k : Block) (s : State) :
    step (s.present (encode (.dec c k))) = .next (respondOk (decrypt Config.hardware c k) 0x0000 s) := by
  rw [step_present, decode_encode]
  rfl

theorem decodeBlock_of_bytes {decodeByte : UInt8 → Option Char} {p : Block} {hi lo : Char}
    (hhi : decodeByte (bytesOf p).1 = some hi) (hlo : decodeByte (bytesOf p).2 = some lo) :
    decodeBlock decodeByte p = .ok [hi, lo] := by
  simp [decodeBlock, hhi, hlo]

section
variable {decodeByte : UInt8 → Option Char} {k c : Block} {token : List Char} {rest : List (List Char)} {s : State}

theorem runTokens_nil : runTokens decodeByte k [] s = .next { output := .ok [], issued := [], core := s } := rfl

/-- A token that does not parse ends the run before its DEC (60_exceptions.md R322). -/
theorem runTokens_of_parse_error {e : HostError} (h : parseToken token = .error e) :
    runTokens decodeByte k (token :: rest) s = .next { output := .error e, issued := [], core := s } := by
  simp [runTokens, h]

/-- A byte that does not decode ends the run after the DEC of its block (60_exceptions.md R325). -/
theorem runTokens_of_decode_error {e : HostError} (hparse : parseToken token = .ok c)
    (hdecode : decodeBlock decodeByte (decrypt Config.hardware c k) = .error e) :
    runTokens decodeByte k (token :: rest) s =
      .next
        { output := .error e
          issued := [encode (.dec c k)]
          core := respondOk (decrypt Config.hardware c k) 0x0000 s } := by
  simp [runTokens, hparse, step_present_dec, hdecode]

/-- A token that parses and whose bytes decode puts its DEC and its characters in front of those of the rest
(60_exceptions.md R324 step 3). -/
theorem runTokens_of_chars {chars : List Char} {t : TokenRun} (hparse : parseToken token = .ok c)
    (hdecode : decodeBlock decodeByte (decrypt Config.hardware c k) = .ok chars)
    (hrest : runTokens decodeByte k rest (respondOk (decrypt Config.hardware c k) 0x0000 s) = .next t) :
    runTokens decodeByte k (token :: rest) s =
      .next
        { output := t.output.map (chars ++ ·)
          issued := encode (.dec c k) :: t.issued
          core := t.core } := by
  simp only [runTokens, hparse, step_present_dec, respondOk_rspR0, hdecode, hrest]

end

/-! ### The ends of an invocation -/

section
variable {decodeByte : UInt8 → Option Char} {world : BatchWorld} {s : State} {text : List Char} {k : Block}
  {t : TokenRun}

theorem runBatch_of_no_input (hinput : world.input = none) :
    runBatch decodeByte world s = .next (batchFailure decodeByte world .ioInput [.readInput] s) := by
  simp [runBatch, hinput]

theorem runBatch_of_key_error {e : HostError} (hinput : world.input = some text)
    (hkey : parseToken world.key = .error e) :
    runBatch decodeByte world s = .next (batchFailure decodeByte world e [.readInput] s) := by
  simp [runBatch, hinput, hkey]

theorem runBatch_of_token_error {e : HostError} (hinput : world.input = some text) (hkey : parseToken world.key = .ok k)
    (hrun : runTokens decodeByte k (tokensOf text) s = .next t) (houtput : t.output = .error e) :
    runBatch decodeByte world s =
      .next (batchFailure decodeByte world e (.readInput :: t.issued.map .issue) t.core) := by
  simp [runBatch, hinput, hkey, hrun, houtput]

theorem batchWrite_of_writable (h : world.sinkWritable = true) (output : List Char) (events : List BatchEvent) :
    batchWrite decodeByte world output events s =
      { outcome := .done output, sink := output, events := events ++ [.writeSink output], core := s } :=
  if_pos h

theorem batchWrite_of_not_writable (h : world.sinkWritable = false) (output : List Char) (events : List BatchEvent) :
    batchWrite decodeByte world output events s = batchFailure decodeByte world .ioOutput events s :=
  if_neg (by simp [h])

theorem runBatch_of_output {output : List Char} (hinput : world.input = some text) (hkey : parseToken world.key = .ok k)
    (hrun : runTokens decodeByte k (tokensOf text) s = .next t) (houtput : t.output = .ok output) :
    runBatch decodeByte world s =
      .next (batchWrite decodeByte world output (.readInput :: t.issued.map .issue) t.core) := by
  simp [runBatch, hinput, hkey, hrun, houtput]

end

/-! ### A batch without errors -/

/-- The characters of the decrypted blocks, two a block (60_exceptions.md R324 step 4). -/
def outputText (chars : List (Char × Char)) : List Char := chars.flatMap (fun ch => [ch.1, ch.2])

/-- Where every token parses and every byte decodes, the host issues one DEC a token, in order, and the core answers
each with its plaintext. -/
theorem runTokens_of_all_ok {decodeByte : UInt8 → Option Char} {k : Block} {tokens : List (List Char)}
    {blocks : List Block} {chars : List (Char × Char)}
    (hparse : List.Forall₂ (fun token c => parseToken token = .ok c) tokens blocks)
    (hdecode : List.Forall₂ (fun c (ch : Char × Char) =>
      decodeByte (bytesOf (decrypt Config.hardware c k)).1 = some ch.1 ∧
      decodeByte (bytesOf (decrypt Config.hardware c k)).2 = some ch.2) blocks chars) (s : State) :
    ∃ t, runTokens decodeByte k tokens s = .next t ∧ t.output = .ok (outputText chars) ∧
      t.issued = blocks.map (fun c => encode (.dec c k)) ∧ t.core.commands = s.commands ∧
      t.core.outcomes = s.outcomes ++ blocks.map (fun c => .ok (decrypt Config.hardware c k) 0x0000) := by
  induction hparse generalizing chars s with
  | nil =>
    cases hdecode
    exact ⟨_, runTokens_nil, rfl, rfl, rfl, by simp⟩
  | @cons token c tokens blocks htoken _ ih =>
    cases hdecode with
    | cons hbytes hrest =>
      obtain ⟨hhi, hlo⟩ := hbytes
      obtain ⟨t, hrun, houtput, hissued, hcommands, houtcomes⟩ :=
        ih hrest (respondOk (decrypt Config.hardware c k) 0x0000 s)
      refine ⟨_, runTokens_of_chars htoken (decodeBlock_of_bytes hhi hlo) hrun, ?_, ?_, hcommands, ?_⟩
      · simp [houtput, Except.map, outputText]
      · simp [hissued]
      · simp [houtcomes]

/-- Settles O46: the run of the tokens ends in the output, and the write puts it into the sink. -/
theorem batchWritesTheDecryptedText : Obligations.BatchWritesTheDecryptedText := by
  unfold Obligations.BatchWritesTheDecryptedText
  intro decodeByte world s text k blocks chars hinput hsink hkey hparse hdecode
  obtain ⟨t, hrun, houtput, hissued, hcommands, houtcomes⟩ := runTokens_of_all_ok hparse hdecode s
  have hbatch := runBatch_of_output hinput hkey hrun houtput
  rw [batchWrite_of_writable hsink] at hbatch
  exact ⟨_, hbatch, rfl, rfl, by simp [hissued, outputText], hcommands, houtcomes⟩

/-! ### A batch with errors -/

/-- A result accounts for a list of errors: it is an error of the list, or there is none (60_exceptions.md R329). -/
def AccountsFor {α : Type} : Except HostError α → List HostError → Prop
  | .ok _, errors => errors = []
  | .error e, errors => e ∈ errors

@[simp] theorem accountsFor_ok {α : Type} (x : α) (errors : List HostError) :
    AccountsFor (.ok x) errors ↔ errors = [] := .rfl

@[simp] theorem accountsFor_error {α : Type} (e : HostError) (errors : List HostError) :
    AccountsFor (.error e : Except HostError α) errors ↔ e ∈ errors := .rfl

/-- What is done to a result's value changes nothing in the errors it accounts for. -/
theorem accountsFor_map {α β : Type} (f : α → β) (result : Except HostError α) (errors : List HostError) :
    AccountsFor (result.map f) errors ↔ AccountsFor result errors := by
  cases result <;> rfl

theorem parseToken_accounts (token : List Char) : AccountsFor (parseToken token) (parseErrors token) := by
  cases herrors : parseErrors token with
  | nil =>
    obtain ⟨b, hb⟩ := (parseToken_isOk_iff token).mpr herrors
    rw [hb, accountsFor_ok]
  | cons e rest =>
    rw [parseToken_of_error herrors, accountsFor_error]
    exact List.mem_cons_self

/-- Every run of the tokens ends; it issues nothing but DECs under the key, and its end accounts for the errors of the
tokens (60_exceptions.md R324, R329). -/
theorem exists_runTokens (decodeByte : UInt8 → Option Char) (k : Block) (tokens : List (List Char)) (s : State) :
    ∃ t, runTokens decodeByte k tokens s = .next t ∧ (∀ w ∈ t.issued, ∃ c, decode w = .dec c k) ∧
      AccountsFor t.output (tokens.flatMap (tokenErrors decodeByte Config.hardware (.ok k))) := by
  induction tokens generalizing s with
  | nil => exact ⟨_, runTokens_nil, by simp, rfl⟩
  | cons token rest ih =>
    have hissue (c : Block) : decode (encode (.dec c k)) = .dec c k := decode_encode _
    have haccounts := parseToken_accounts token
    cases hparse : parseToken token with
    | error e =>
      rw [hparse] at haccounts
      exact ⟨_, runTokens_of_parse_error hparse, by simp,
        by simpa [tokenErrors, hparse] using .inl haccounts⟩
    | ok c =>
      cases hdecode : decodeBlock decodeByte (decrypt Config.hardware c k) with
      | error e =>
        exact ⟨_, runTokens_of_decode_error hparse hdecode, by simp [hissue], by simp [tokenErrors, hparse, hdecode]⟩
      | ok chars =>
        obtain ⟨t, hrun, hdecs, hrest⟩ := ih (respondOk (decrypt Config.hardware c k) 0x0000 s)
        refine ⟨_, runTokens_of_chars hparse hdecode hrun, List.forall_mem_cons.mpr ⟨⟨c, hissue c⟩, hdecs⟩, ?_⟩
        rw [accountsFor_map]
        simpa [tokenErrors, hparse, hdecode] using hrest

/-- A failed invocation reports a kind that applies if it met one (60_exceptions.md R329). -/
theorem reportedError_mem {decodeByte : UInt8 → Option Char} {world : BatchWorld} {met : HostError}
    (h : met ∈ applicableErrors decodeByte Config.hardware world) :
    reportedError decodeByte world met ∈ applicableErrors decodeByte Config.hardware world := by
  have hindex := Nat.mod_lt (Config.freeErrorChoice world.freeIndex) (List.length_pos_of_mem h)
  simp only [reportedError, List.getD_eq_getElem _ _ hindex, List.getElem_mem]

/-- The errors of an invocation whose input is there and whose key parses. -/
theorem applicableErrors_of_key {decodeByte : UInt8 → Option Char} {cfg : Config} {world : BatchWorld}
    {text : List Char} {k : Block} (hinput : world.input = some text) (hkey : parseToken world.key = .ok k) :
    applicableErrors decodeByte cfg world =
      (tokensOf text).flatMap (tokenErrors decodeByte cfg (.ok k)) ++ if world.sinkWritable then [] else [.ioOutput] := by
  have hkeyErrors : parseErrors world.key = [] := (parseToken_isOk_iff _).mp ⟨k, hkey⟩
  simp [applicableErrors, hinput, hkey, hkeyErrors]

/-- All that an invocation can do: it reads, issues DECs, and then writes its output where no error applies, or fails
with an error that applies. -/
theorem runBatch_cases (decodeByte : UInt8 → Option Char) (world : BatchWorld) (s : State) :
    ∃ (issued : List CmdWord) (final : State), (∀ w ∈ issued, ∃ c k, decode w = .dec c k) ∧
      ((∃ met ∈ applicableErrors decodeByte Config.hardware world,
          runBatch decodeByte world s =
            .next (batchFailure decodeByte world met (.readInput :: issued.map .issue) final)) ∨
        (applicableErrors decodeByte Config.hardware world = [] ∧
          ∃ output, runBatch decodeByte world s =
            .next
              { outcome := .done output
                sink := output
                events := .readInput :: issued.map .issue ++ [.writeSink output]
                core := final })) := by
  cases hinput : world.input with
  | none =>
    exact ⟨[], s, by simp, .inl ⟨.ioInput, by simp [applicableErrors, hinput], runBatch_of_no_input hinput⟩⟩
  | some text =>
    have haccounts := parseToken_accounts world.key
    cases hkey : parseToken world.key with
    | error e =>
      rw [hkey, accountsFor_error] at haccounts
      exact ⟨[], s, by simp, .inl ⟨e, by simp [applicableErrors, haccounts], runBatch_of_key_error hinput hkey⟩⟩
    | ok k =>
      have herrors := applicableErrors_of_key (decodeByte := decodeByte) (cfg := Config.hardware) hinput hkey
      obtain ⟨t, hrun, hdecs, htokens⟩ := exists_runTokens decodeByte k (tokensOf text) s
      refine ⟨t.issued, t.core, fun w hw => (hdecs w hw).imp fun c hc => ⟨k, hc⟩, ?_⟩
      cases houtput : t.output with
      | error e =>
        rw [houtput, accountsFor_error] at htokens
        exact .inl ⟨e, by simp only [herrors, List.mem_append, htokens, true_or],
          runBatch_of_token_error hinput hkey hrun houtput⟩
      | ok output =>
        rw [houtput, accountsFor_ok] at htokens
        have hbatch := runBatch_of_output hinput hkey hrun houtput
        rw [htokens, List.nil_append] at herrors
        cases hsink : world.sinkWritable with
        | true =>
          rw [batchWrite_of_writable hsink] at hbatch
          exact .inr ⟨by simp [herrors, hsink], output, hbatch⟩
        | false =>
          rw [batchWrite_of_not_writable hsink] at hbatch
          exact .inl ⟨.ioOutput, by simp [herrors, hsink], hbatch⟩

/-- Settles O47: the two ends of `runBatch_cases` are told apart by the errors that apply. -/
theorem batchFailsExactlyWhenAnErrorApplies : Obligations.BatchFailsExactlyWhenAnErrorApplies := by
  unfold Obligations.BatchFailsExactlyWhenAnErrorApplies
  intro decodeByte world s
  obtain ⟨issued, final, -, ⟨met, hmet, hbatch⟩ | ⟨hnone, output, hbatch⟩⟩ := runBatch_cases decodeByte world s
  · refine ⟨_, hbatch, iff_of_false (by simp [batchFailure]) (List.ne_nil_of_mem hmet), ?_⟩
    rintro e ⟨⟩
    exact reportedError_mem hmet
  · exact ⟨_, hbatch, iff_of_true ⟨output, rfl⟩ hnone, by simp⟩

/-- Settles O48: in both ends of `runBatch_cases` the DECs stand between the read and the write. -/
theorem batchReadsOnceThenWritesAtMostOnce : Obligations.BatchReadsOnceThenWritesAtMostOnce := by
  unfold Obligations.BatchReadsOnceThenWritesAtMostOnce
  intro decodeByte world s
  obtain ⟨issued, final, hdecs, ⟨met, -, hbatch⟩ | ⟨-, output, hbatch⟩⟩ := runBatch_cases decodeByte world s
  · exact ⟨_, issued, hbatch, hdecs, .inr ⟨_, rfl, rfl⟩⟩
  · exact ⟨_, issued, hbatch, hdecs, .inl ⟨output, rfl, rfl, rfl⟩⟩

end Sys2Proof.Machine
end

section
/-! PROOF. A run of commands as its list of outcomes, and reset: the machine right after it, and that between commands
it changes no later outcome (70_reset_and_hazards.md R400, R405). -/

namespace Sys2Proof.Machine

/-! ### A run answers its commands in order -/

/-- All that the step on a presented word does to the run: the commands behind the word are left, its outcome joins the
record, the fault mark takes up a fault, and the ports show the answer (20_memory.md R48, 60_exceptions.md R300). -/
theorem step_answers {s : State} {w : CmdWord} {rest : List CmdWord} (h : s.commands = w :: rest) :
    ∃ t, step s = .next t ∧ t.commands = rest ∧ t.outcomes = s.outcomes ++ [outcomeOf Config.hardware (decode w)] ∧
      t.faultMark = (s.faultMark || (outcomeOf Config.hardware (decode w)).isFault) ∧
      t.Shows (outcomeOf Config.hardware (decode w)) := by
  obtain ⟨hcommands, -, -, houtcomes, hmark, -⟩ :=
    respond_cases (outcomeOf Config.hardware (decode w)) { s with commands := rest }
  exact ⟨_, step_of_commands_cons h, hcommands, houtcomes, hmark, respond_shows _ _⟩

/-- As many steps as there are words answer exactly the words, and the fault mark takes up every fault among their
outcomes (70_reset_and_hazards.md R405). -/
theorem run_answers {s : State} {words rest : List CmdWord} (h : s.commands = words ++ rest) :
    ∃ t : State, Host.Core.run core words.length s = .next t ∧ t.commands = rest ∧
      t.outcomes = s.outcomes ++ observation Config.hardware words ∧
      t.faultMark = (s.faultMark || (observation Config.hardware words).any CmdOutcome.isFault) := by
  induction words generalizing s with
  | nil => exact ⟨s, run_zero s, h, by simp, by simp⟩
  | cons w words ih =>
    obtain ⟨u, hstep, hu, huoutcomes, humark, -⟩ := step_answers h
    obtain ⟨t, hrun, ht, htoutcomes, htmark⟩ := ih hu
    refine ⟨t, (run_succ hstep words.length).trans hrun, ht, ?_, ?_⟩
    · simp [htoutcomes, huoutcomes]
    · simp [htmark, humark, Bool.or_assoc]

/-- A command's outcome is a fault exactly if its opcode is reserved (60_exceptions.md R300, R301). -/
theorem isFault_outcomeOf_iff (cfg : Config) (i : Instr) : (outcomeOf cfg i).isFault = true ↔ ReservedOp i.opcode := by
  rcases Nat.lt_or_ge 8 i.opcode.toNat with hreserved | hdefined
  · rw [outcomeOf_of_reserved cfg hreserved]
    exact iff_of_true rfl hreserved
  · obtain ⟨r0, r1, houtcome, -, -⟩ := outcomeOf_of_defined cfg hdefined
    rw [houtcome]
    exact iff_of_false Bool.false_ne_true (Nat.not_lt.mpr hdefined)

/-- The outcomes of words hold a fault exactly if one of the words has a reserved opcode. -/
theorem any_isFault_observation_iff (cfg : Config) (words : List CmdWord) :
    (observation cfg words).any CmdOutcome.isFault = true ↔ ∃ w ∈ words, ReservedOp (opField w) := by
  simp only [observation, List.any_map, List.any_eq_true, Function.comp_apply, isFault_outcomeOf_iff, opcode_decode]

/-- Settles O11: the run's mark is set by the faults among the outcomes, which are those of the reserved opcodes. -/
theorem runObservesEveryCommandInOrder : Obligations.RunObservesEveryCommandInOrder := by
  unfold Obligations.RunObservesEveryCommandInOrder
  intro s words rest
  obtain ⟨t, hrun, hcommands, houtcomes, hmark⟩ := run_answers (s := { s with commands := words ++ rest }) rfl
  refine ⟨t, hrun, hcommands, houtcomes, ?_⟩
  rw [hmark, Bool.or_eq_true, any_isFault_observation_iff]
  rfl

/-! ### Reset -/

/-- Settles O18: reset leaves the commands, the record and the mark, and the step's answer reads nothing else. -/
theorem resetHasNoArchitecturalEffect : Obligations.ResetHasNoArchitecturalEffect := by
  unfold Obligations.ResetHasNoArchitecturalEffect
  intro s w
  obtain ⟨t, hstep, hcommands, houtcomes, hmark, hshows⟩ := step_answers (present_commands w s)
  obtain ⟨u, hstep', hcommands', houtcomes', hmark', hshows'⟩ := step_answers (present_commands w s.assertReset)
  exact ⟨assertReset_responded s, t, u, _, hstep, hstep', houtcomes, houtcomes', hshows, hshows',
    hcommands'.trans hcommands.symm, hmark'.trans hmark.symm⟩

@[simp] theorem reset_commands : State.reset.commands = [] := rfl
@[simp] theorem reset_responded : State.reset.responded = false := rfl
@[simp] theorem reset_outcomes : State.reset.outcomes = [] := rfl
@[simp] theorem reset_faultMark : State.reset.faultMark = false := rfl

/-- Settles O15: with an empty record, a clear mark and no response, each clause of the invariant holds. -/
theorem resetMeetsInv : Obligations.ResetMeetsInv := by
  unfold Obligations.ResetMeetsInv
  constructor
  case mark => simp [State.runFailed]
  case faults => simp
  case shown => simp

/-- Settles O17: the fields of the reset state, and the step's answer to a word presented there. -/
theorem resetLeavesTheCoreIdle : Obligations.ResetLeavesTheCoreIdle := by
  unfold Obligations.ResetLeavesTheCoreIdle
  refine ⟨reset_commands, reset_responded, reset_outcomes, reset_faultMark, fun w => ?_⟩
  obtain ⟨t, hstep, hcommands, houtcomes, -, -⟩ := step_answers (present_commands w State.reset)
  exact ⟨t, hstep, hcommands, houtcomes⟩

end Sys2Proof.Machine
end

section
/-! PROOF. Words of 95_test_vectors.md written out: a word decodes to the command that it is the word of. -/

namespace Sys2Proof

/-- Decoding and encoding invert each other, so a word's command is the one whose fields spell the word
(30_encoding.md R60, R66). -/
theorem decode_eq_iff_encode_eq {w : CmdWord} {i : Instr} : decode w = i ↔ encode i = w := by
  constructor
  · rintro rfl
    exact encode_decode w
  · rintro rfl
    exact decode_encode i

/-- Settles O3: the fields `O AAAA BBBB` of each command spell the word beside it. -/
theorem writtenWordsDecode : Obligations.WrittenWordsDecode := by
  unfold Obligations.WrittenWordsDecode
  simp only [decode_eq_iff_encode_eq]
  and_intros <;> rfl

end Sys2Proof
end
